-- ==== Sys2Proof/Word.lean ====
section
/-! DEFINITION. The words of the block: 64-bit values, and the pair of them that is the generator's state. -/

namespace Sys2Proof

/-- A state word, an operand or a result: 64 bits, bit 0 the least significant (R9, R14). -/
abbrev Word := BitVec 64

/-- The generator's state: exactly two 64-bit words, always moved together, S0 first (R100, R204, R207). -/
structure GenState where
  /-- S0 -/
  s0 : Word
  /-- S1 -/
  s1 : Word
deriving DecidableEq, Repr

namespace GenState

/-- The degenerate state (0, 0) (R19, R103). -/
def degenerate : GenState := ⟨0, 0⟩

/-- Bitwise exclusive OR of two states: addition over GF(2) (R503, R603). -/
def xor (a b : GenState) : GenState := ⟨a.s0 ^^^ b.s0, a.s1 ^^^ b.s1⟩

end GenState

end Sys2Proof
end

