-- ==== Sys2Proof/Config.lean ====
section
/-! DEFINITION. What is fixed for the block: the parameters the source settles (R9), and the configuration parameters
of an instance (R10). The defaults of the latter are `Config.standard` in Machine/Standard.lean. -/

namespace Sys2Proof

/-- ROT_A (R9). -/
def rotA : Nat := 55
/-- SH_B (R9). -/
def shB : Nat := 14
/-- ROT_C (R9). -/
def rotC : Nat := 36
/-- RESULT_MIN (R9, R511). -/
def resultMin : Nat := 0
/-- RESULT_MAX (R9, R511). -/
def resultMax : Nat := 2 ^ 64 - 1
/-- JUMP_DISTANCE: how many steps one jump stands for (R9). -/
def jumpDistance : Nat := 2 ^ 64
/-- SEQ_WORDS: how many 32-bit words a seed sequence supplies (R9). -/
def seqWords : Nat := 4

/-- The configuration parameters of an instance, constant while it runs (R10, R105). LAT_NEXT, LAT_JUMP and LAT_SEED
are left out: no rule may depend on them (R915; log entry 15). -/
structure Config where
  /-- DEFAULT_SEED -/
  defaultSeed : Word
  /-- SEED_EXPAND: the first word of the pair is meant for S0, the second for S1 (R402). -/
  seedExpand : Word → Word × Word
  /-- JUMP0 -/
  jump0 : Word
  /-- JUMP1 -/
  jump1 : Word

end Sys2Proof
end

