-- ==== Sys2Proof/Machine/Generator.lean ====
section
/-! DEFINITION. The state transition and the jump, as functions of the generator's state (41_generation.md,
42_jump.md section 1). -/

namespace Sys2Proof.Machine

/-- `rotl(a, k)`: 64-bit circular left rotation, for 1 ≤ k ≤ 63 (R15). -/
def rotl (a : Word) (k : Nat) : Word := (a <<< k) ||| (a >>> (64 - k))

/-- `Step(s0, s1)`: the result, from the old state, and the new state (R501). -/
def genStep (g : GenState) : Word × GenState :=
  let t := g.s1 ^^^ g.s0
  (g.s0 + g.s1, ⟨rotl g.s0 rotA ^^^ t ^^^ (t <<< shB), rotl t rotC⟩)

/-- The result of one Step (R501). -/
def genResult (g : GenState) : Word := (genStep g).1

/-- The state part of one Step: the map T of R503 and R504. -/
def genNext (g : GenState) : GenState := (genStep g).2

/-- `StepInv` (R503). -/
def genPrev (g : GenState) : GenState :=
  let t := rotl g.s1 (64 - rotC)
  let s0 := rotl (g.s0 ^^^ t ^^^ (t <<< shB)) (64 - rotA)
  ⟨s0, t ^^^ s0⟩

/-- The results of the next n Steps, first one first: the generator's output sequence (R402, R502). -/
def nextResults : Nat → GenState → List Word
  | 0, _ => []
  | n + 1, g => genResult g :: nextResults n (genNext g)

/-- The state n Steps on: the loop of DISCARD (R520). -/
def genAdvance (n : Nat) (g : GenState) : GenState := genNext^[n] g

/-- The accumulators and the working state of the jump loop (R601). -/
structure JumpLoop where
  acc : GenState
  cur : GenState
deriving DecidableEq, Repr

/-- One iteration of the jump loop: accumulate the working state if the bit is set, then step it (R601). -/
def jumpIter (x : JumpLoop) (bit : Bool) : JumpLoop :=
  ⟨if bit then x.acc.xor x.cur else x.acc, genNext x.cur⟩

/-- The bits of a jump constant, bit 0 first (R601). -/
def bitsOf (c : Word) : List Bool := (List.range 64).map (fun b => c.getLsbD b)

/-- `Jump(s0, s1)`: the bits of JUMP0, then those of JUMP1 (R601). -/
def jump (cfg : Config) (g : GenState) : GenState :=
  ((bitsOf cfg.jump0 ++ bitsOf cfg.jump1).foldl jumpIter ⟨GenState.degenerate, g⟩).acc

/-- The state n jumps on: the loop of JUMPN (R620). -/
def jumpAdvance (cfg : Config) (n : Nat) (g : GenState) : GenState := (jump cfg)^[n] g

end Sys2Proof.Machine
end

