-- ==== Sys2Proof/Syntax.lean ====
section
/-! DEFINITION. The block's command set: what a host presents on the ports (raw), the commands it can mean, and the
listing forms of R313 and R314. -/

namespace Sys2Proof

/-- The word width W of SEED_WORDS (R308). Other widths are not encodable, so they have no constructor (93 I1). -/
inductive WordWidth where
  | w8
  | w16
  | w32
  | w64
deriving DecidableEq, Repr

/-- The commands: one constructor for each row of the opcode table, with the operands the row uses (R307, R310).
The words of SEED_WORDS arrive on the word-source port while it runs, so they are no part of the syntax. -/
inductive Instr where
  /-- SEED_U64, ARG0 = value (R410). -/
  | seedU64 (value : Word)
  /-- SEED_DEFAULT (R411). -/
  | seedDefault
  /-- SEED_WORDS, WSEL = width (R420). -/
  | seedWords (width : WordWidth)
  /-- LOAD_STATE, ARG0 = new S0, ARG1 = new S1 (R430). -/
  | loadState (s0 s1 : Word)
  /-- NEXT (R510). -/
  | next
  /-- DISCARD, ARG0 = n (R520). -/
  | discard (n : Word)
  /-- JUMP (R610). -/
  | jump
  /-- JUMPN, ARG0 = n (R620). -/
  | jumpn (n : Word)
  /-- READ_STATE (R701). -/
  | readState
deriving DecidableEq, Repr

/-- What one transfer on the command port samples: CMD, ARG0 and ARG1 together (R300, R301). Any value of the three may
be presented; `decode` says which are commands. -/
structure Command where
  cmd : BitVec 8
  arg0 : Word
  arg1 : Word
deriving DecidableEq, Repr

/-- One transfer on the word-source port (R304): a word on WDATA (WERR = 0), or a failure (WERR = 1). -/
inductive WordTransfer where
  | word (wdata : Word)
  | err
deriving DecidableEq, Repr

/-- One line of a listing: a command and the transfers the word source delivers for it, first one first (R313). -/
structure Line where
  instr : Instr
  words : List WordTransfer
deriving DecidableEq, Repr

/-- The pseudo-commands (R314). -/
inductive Pseudo where
  | seed
  | seedSeq (w0 w1 w2 w3 : Word)
  | seedGen64 (a b : Word)
  | seedFromInteger (v : Word)
  | nop
deriving DecidableEq, Repr

end Sys2Proof
end

