-- ==== Sys2Proof/Machine/Operands.lean ====
section
/-! DEFINITION. The fields of the command word (R306), and the operand forms: whole 64-bit operands, unsigned counts, and the seed words of SEED_WORDS with their
widths (R307, R308, R422). -/

namespace Sys2Proof

/-- CMD[3:0] (R306). -/
def Command.op (c : Command) : BitVec 4 := c.cmd.extractLsb' 0 4

/-- CMD[5:4] (R306). -/
def Command.wsel (c : Command) : BitVec 2 := c.cmd.extractLsb' 4 2

/-- CMD[7:6] (R306). -/
def Command.rsv (c : Command) : BitVec 2 := c.cmd.extractLsb' 6 2

/-- W: how many bits of WDATA are the seed word (R308). -/
def WordWidth.bits : WordWidth → Nat
  | .w8 => 8
  | .w16 => 16
  | .w32 => 32
  | .w64 => 64

/-- k = 128 / W: how many words SEED_WORDS takes (R308). -/
def WordWidth.count (w : WordWidth) : Nat := 128 / w.bits

namespace Machine

/-- The count n of DISCARD and JUMPN: unsigned (R307). -/
def countOperand (arg : Word) : Nat := arg.toNat

/-- The seed word on WDATA: its low W bits; the rest is ignored and not checked (R205, R422). -/
def seedWord (w : WordWidth) (wdata : Word) : Word := BitVec.ofNat 64 (wdata.toNat % 2 ^ w.bits)

end Machine

end Sys2Proof
end

