-- ==== Sys2Proof/WellFormed.lean ====
section
/-! DEFINITION. What is well formed: a command word, a listing line, a configuration.

An `Instr` itself has no ill-formed term: its operands are whole 64-bit values, any of which is legal (R303, R307), and
`WordWidth` holds the four encodable widths and no other (R308). What can be ill formed is what a host hands the block
(`Command.wellFormed`, R311), a listing (`Line.wellFormed`, R313) and a configuration (`Config.wellFormed`, R10). -/

namespace Sys2Proof

/-- The three checks of R311: RSV is 00, OP is assigned, WSEL is 00 outside SEED_WORDS. -/
def Command.wellFormed (c : Command) : Bool :=
  c.rsv == 0 && !(c.op == 0 || decide (10 ≤ c.op.toNat)) && (c.op == 3 || c.wsel == 0)

/-- Whether a list of transfers is what a command that needs so many words takes: exactly that many words, or fewer and
then a failure (R309, R420, R423). -/
def transfersFit : Nat → List WordTransfer → Bool
  | 0, xs => xs.isEmpty
  | _ + 1, [] => false
  | _ + 1, .err :: rest => rest.isEmpty
  | need + 1, .word _ :: rest => transfersFit need rest

/-- Whether the transfers a line lists are the ones its command takes: for SEED_WORDS those for its k words; for every
other command none (R304, R309, R313). -/
def Line.wellFormed (l : Line) : Bool :=
  match l.instr with
  | .seedWords w => transfersFit w.count l.words
  | .seedU64 _ | .seedDefault | .loadState _ _ | .next | .discard _ | .jump | .jumpn _ | .readState => l.words.isEmpty

/-- The premise on any configuration: SEED_EXPAND(DEFAULT_SEED) is not (0, 0) (R10, R906). -/
def Config.wellFormed (cfg : Config) : Bool :=
  !((cfg.seedExpand cfg.defaultSeed).1 == 0 && (cfg.seedExpand cfg.defaultSeed).2 == 0)

end Sys2Proof
end

