-- ==== Sys2Proof/Decode.lean ====
section
/-! DEFINITION. From the sampled ports to a command (R306 to R312), and back. Decoding is total: every sample is a
command or is rejected by the name of the check it fails. -/

namespace Sys2Proof

/-- Why a command word is illegal, in the order R311 tries the checks. Every one of them raises ILLEGAL (R801). -/
inductive DecodeError where
  /-- RSV is not 00. -/
  | reservedBits
  /-- OP is 0x0 or 0xA to 0xF. -/
  | reservedOpcode
  /-- WSEL is not 00 and OP is not SEED_WORDS. -/
  | strayWidth
deriving DecidableEq, Repr

/-- WSEL to width (R308). -/
def widthOfWsel (wsel : BitVec 2) : WordWidth :=
  match wsel.toNat with
  | 0 => .w8
  | 1 => .w16
  | 2 => .w32
  | _ => .w64

/-- Width to WSEL (R308). -/
def WordWidth.wsel : WordWidth → BitVec 2
  | .w8 => 0b00
  | .w16 => 0b01
  | .w32 => 0b10
  | .w64 => 0b11

/-- The opcode map (R310), for a sample that passed the checks on RSV and WSEL. -/
def decodeOp (c : Command) : Except DecodeError Instr :=
  match c.op.toNat with
  | 0x1 => .ok (.seedU64 c.arg0)
  | 0x2 => .ok .seedDefault
  | 0x3 => .ok (.seedWords (widthOfWsel c.wsel))
  | 0x4 => .ok (.loadState c.arg0 c.arg1)
  | 0x5 => .ok .next
  | 0x6 => .ok (.discard c.arg0)
  | 0x7 => .ok .jump
  | 0x8 => .ok (.jumpn c.arg0)
  | 0x9 => .ok .readState
  | _ => .error .reservedOpcode

/-- Decoding, the checks in the order of R311. -/
def decode (c : Command) : Except DecodeError Instr :=
  if c.rsv ≠ 0 then .error .reservedBits
  else if c.op = 0 ∨ 10 ≤ c.op.toNat then .error .reservedOpcode
  else if c.op ≠ 3 ∧ c.wsel ≠ 0 then .error .strayWidth
  else decodeOp c

/-- The command word of a command: `00` RSV, WSEL, OP, the most significant bit first (R306, R310). -/
def commandWord : Instr → BitVec 8
  | .seedU64 _ => 0b00000001
  | .seedDefault => 0b00000010
  | .seedWords w => 0b00#2 ++ w.wsel ++ 0b0011#4
  | .loadState _ _ => 0b00000100
  | .next => 0b00000101
  | .discard _ => 0b00000110
  | .jump => 0b00000111
  | .jumpn _ => 0b00001000
  | .readState => 0b00001001

/-- The sample that encodes a command; an operand the command does not use is 0 (R307, R313). -/
def encode (i : Instr) : Command :=
  match i with
  | .seedU64 v => ⟨commandWord i, v, 0⟩
  | .loadState a b => ⟨commandWord i, a, b⟩
  | .discard n => ⟨commandWord i, n, 0⟩
  | .jumpn n => ⟨commandWord i, n, 0⟩
  | .seedDefault | .seedWords _ | .next | .jump | .readState => ⟨commandWord i, 0, 0⟩

/-- The 12 legal command words, as R311 lists them. -/
def legalCommandWords : List (BitVec 8) :=
  [0x01, 0x02, 0x03, 0x13, 0x23, 0x33, 0x04, 0x05, 0x06, 0x07, 0x08, 0x09]

/-- The mnemonic of a command (R310). -/
def Instr.mnemonic : Instr → String
  | .seedU64 _ => "SEED_U64"
  | .seedDefault => "SEED_DEFAULT"
  | .seedWords _ => "SEED_WORDS"
  | .loadState _ _ => "LOAD_STATE"
  | .next => "NEXT"
  | .discard _ => "DISCARD"
  | .jump => "JUMP"
  | .jumpn _ => "JUMPN"
  | .readState => "READ_STATE"

/-- The expansions of the pseudo-commands (R314). -/
def Pseudo.expand : Pseudo → Line
  | .seed => ⟨.seedDefault, []⟩
  | .seedSeq w0 w1 w2 w3 => ⟨.seedWords .w32, [.word w0, .word w1, .word w2, .word w3]⟩
  | .seedGen64 a b => ⟨.seedWords .w64, [.word a, .word b]⟩
  | .seedFromInteger v => ⟨.seedU64 v, []⟩
  | .nop => ⟨.discard 0, []⟩

/-- The sample whose bits are the number w: CMD in bits 7..0, ARG0 in bits 71..8, ARG1 in bits 135..72; bits from nbits
up are 0. DESIGN CHOICE (log entry 8): the block's ports are parallel, and this numbering exists only to write a sample
as one number. -/
def commandOfBits (nbits w : Nat) : Command :=
  let v := w % 2 ^ nbits
  ⟨BitVec.ofNat 8 v, BitVec.ofNat 64 (v / 2 ^ 8), BitVec.ofNat 64 (v / 2 ^ 72)⟩

/-- The command the decoder reads from the sample whose bits are w. -/
def decodeTableWord (nbits w : Nat) : Option Instr :=
  match decode (commandOfBits nbits w) with
  | .ok i => some i
  | .error _ => none

end Sys2Proof
end

