-- ==== Sys2Proof/Machine/Expander.lean ====
section
/-! DEFINITION. The seed expander, the state validator and the packing of seed words (40_seeding.md section 1, R421). -/

namespace Sys2Proof.Machine

/-- The SplitMix64 increment G (R401). PRESUMED, log entry 1: the spec takes it from general knowledge. -/
def splitMixG : Word := 0x9E3779B97F4A7C15

/-- `mix(z)` of SplitMix64 (R401). PRESUMED, log entry 1. -/
def splitMix (z : Word) : Word :=
  let z := (z ^^^ (z >>> 30)) * 0xBF58476D1CE4E5B9
  let z := (z ^^^ (z >>> 27)) * 0x94D049BB133111EB
  z ^^^ (z >>> 31)

/-- The default SEED_EXPAND: SplitMix64 started at the seed and stepped twice (R401, R402). PRESUMED, log entry 1. -/
def splitMixExpand (v : Word) : Word × Word :=
  (splitMix (v + splitMixG), splitMix (v + splitMixG + splitMixG))

/-- SEED_EXPAND as a candidate state: the first word to S0, the second to S1 (R402). -/
def expand (cfg : Config) (v : Word) : GenState := ⟨(cfg.seedExpand v).1, (cfg.seedExpand v).2⟩

/-- `Validate(a, b)`: the degenerate state is replaced, once, by the expansion of the default seed (R404). -/
def validate (cfg : Config) (g : GenState) : GenState :=
  if g = GenState.degenerate then expand cfg cfg.defaultSeed else g

/-- The state that seeding with the default seed gives: SEED_DEFAULT's and reset's (R411, R901). -/
def defaultState (cfg : Config) : GenState := validate cfg (expand cfg cfg.defaultSeed)

/-- The sum of `w[i] << (i * W)` in 128 bits over the words from index i on (R421). -/
def packFrom (W : Nat) : Nat → List Word → BitVec 128
  | _, [] => 0
  | i, w :: ws => (w.setWidth 128 <<< (i * W)) + packFrom W (i + 1) ws

/-- `Pack(W, w)`: little-endian, the low half to S0 and the high half to S1 (R421). -/
def pack (w : WordWidth) (ws : List Word) : GenState :=
  let v := packFrom w.bits 0 ws
  ⟨v.extractLsb' 0 64, v.extractLsb' 64 64⟩

end Sys2Proof.Machine
end

