-- ==== Sys2Proof/Machine/Standard.lean ====
section
/-! DEFINITION. The default configuration (R10). -/

namespace Sys2Proof

/-- The defaults of R10. DEFAULT_SEED is the source's all-ones seed; SEED_EXPAND, JUMP0 and JUMP1 are PRESUMED (log
entry 1): the spec takes them from general knowledge. -/
def Config.standard : Config where
  defaultSeed := 0xFFFFFFFFFFFFFFFF
  seedExpand := Machine.splitMixExpand
  jump0 := 0xBEAC0467EBA5FACB
  jump1 := 0xD86B048B86AA9922

end Sys2Proof
end

