-- ==== Sys2Proof/Machine/State.lean ====
section
/-! DEFINITION. The state of the machine: the generator's two registers, the command in flight, and what stands on the
ports. Plain data. Its value after reset, and the ways a step can stop. -/

namespace Sys2Proof.Machine

/-- The status of a response (R305). The code 11 is reserved and never produced, so it has no constructor. -/
inductive Status where
  /-- The command completed as its rule says. -/
  | ok
  /-- The command word is not a legal encoding (R801). -/
  | illegal
  /-- The word source reported failure during SEED_WORDS (R803). -/
  | srcErr
deriving DecidableEq, Repr

/-- A response: RSTATUS, RDATA0, RDATA1 (R305). -/
structure Response where
  status : Status
  data0 : Word
  data1 : Word
deriving DecidableEq, Repr

/-- Where the block stands in the life of a command (R301). -/
inductive Phase where
  /-- No command in flight: the block waits for one (R302, R902). -/
  | idle
  /-- A command has been accepted: CMD, ARG0 and ARG1 are sampled, and nothing of it has run (R301, R303). -/
  | accepted (c : Command)
  /-- SEED_WORDS is in flight and still needs words; `staged` holds those it has taken, first one first (R111, R913). -/
  | waiting (w : WordWidth) (staged : List Word)
  /-- The command has ended and its response has not been taken: RSP_VALID is 1 (R301, R912). -/
  | responding (r : Response)
deriving DecidableEq, Repr

/-- The machine. `gen` is the whole architectural state (R100); `phase` is the command in flight; the other fields are
what the host holds on its side of the ports (log entry 2). -/
structure State where
  /-- S0 and S1, written together (R100, R101, R207). -/
  gen : GenState
  /-- BUSY, the sampled command, the staging buffer, the pending response (R301, R302, R111, R305). -/
  phase : Phase
  /-- RST: the host requests a reset (R900; log entry 4). -/
  rst : Bool
  /-- The commands the host presents, the next one first; CMD_VALID is 1 when there is one (R300, R911). -/
  cmds : List Command
  /-- The transfers the word source presents, the next one first; W_VALID is 1 when there is one (R300, R304). Until they
  are taken it may take them back (log entry 19). -/
  words : List WordTransfer
  /-- RSP_READY: the host is ready to take a response (R300, R912). -/
  rspReady : Bool
  /-- The responses the host has taken, oldest first: the model's record of the block's output (log entry 13). -/
  responses : List Response
deriving DecidableEq, Repr

/-- Why the machine stops. -/
inductive Fault where
  /-- The degenerate state (0, 0) has been reached (R103, 93 I10). Raised by `step`, in such a state, unless a reset is
  requested. Safe: the machine stops where the spec says that a model should fault; no run of a well-formed
  configuration with the default jump constants gets there. -/
  | degenerateState
deriving DecidableEq, Repr

/-- Why the model gives no meaning. -/
inductive Refusal where
  /-- The instruction has no meaning yet. Raised by a refused arm of `exec`; no arm is refused. Safe. -/
  | notModelled (mnemonic : String)
  /-- The configuration breaks the premise of R10 (93 I4). Raised by `stepWith`; never by `step`, whose configuration
  is the default one. Safe: the spec itself refuses such a configuration. -/
  | configurationRefused
deriving DecidableEq, Repr

/-- The machine right after reset, of an instance configured as cfg: S0 and S1 by R901, no command in flight (R902).
The host's side: nothing presented, no reset requested, ready for responses. DESIGN CHOICE (log entry 6). -/
def State.resetOf (cfg : Config) : State where
  gen := defaultState cfg
  phase := .idle
  rst := false
  cmds := []
  words := []
  rspReady := true
  responses := []

/-- The machine right after reset, with the default configuration (R901, R902; log entries 1 and 6). -/
def State.reset : State := State.resetOf Config.standard

end Sys2Proof.Machine
end

