-- ==== Sys2Proof/Machine/Flags.lean ====
section
/-! DEFINITION. The block has no flags and no condition codes (R108): no command sets or reads one. What a command tells
of its outcome travels on its response, whose status code is here, with the status lines of the ports (R302, R305). -/

namespace Sys2Proof.Machine

/-- RSTATUS (R305). -/
def Status.code : Status → BitVec 2
  | .ok => 0b00
  | .illegal => 0b01
  | .srcErr => 0b10

end Sys2Proof.Machine
end

