-- ==== Sys2Proof/Machine/Ops.lean ====
section
/-! DEFINITION. The operations the commands share: the end of a command with its response, the end of a command with an
error (the block's only kind of exception, R806), taking seed words, and the transfers on the command and response ports
and the reset, which `step` performs. -/

namespace Sys2Proof.Machine

/-- What a step or a command answers. -/
abbrev Out := Host.Outcome State Fault Refusal

/-- A response that carries no data (R305). -/
def okResponse : Response := ⟨.ok, 0, 0⟩

/-- The response of an error: its status, and zero data (R305, R801, R803). -/
def errorResponse (e : Status) : Response := ⟨e, 0, 0⟩

/-- `respond(status, d0, d1)`: the command in flight ends, and its one response is presented (R17, R301). -/
def State.respond (s : State) (r : Response) : State := { s with phase := .responding r }

/-- The completion of a command that writes the state: S0 and S1 change together, then the response (R112, R207). -/
def State.complete (s : State) (g : GenState) (r : Response) : State := { s with gen := g }.respond r

/-- `raise e`: the command ends with that status and zero data, S0 and S1 as they were; there is no vector and nothing
is saved (R17, R802, R803, R806). The machine goes on: the next command is accepted once the response is taken. -/
def State.raise (s : State) (e : Status) : State := s.respond (errorResponse e)

/-- The end of every seeding command: the candidate state is validated, never written raw (R400), and the response is
OK with zero data, whether the validator re-seeded or not (R405). -/
def State.seedWith (cfg : Config) (s : State) (candidate : GenState) : State :=
  s.complete (validate cfg candidate) okResponse

/-- What came of asking the word source for some words (R304). -/
inductive WordRun where
  /-- All of them came; `rest` stays presented. -/
  | all (taken : List Word) (rest : List WordTransfer)
  /-- The word source failed: the failing transfer was taken, `rest` was not (R423). -/
  | failed (rest : List WordTransfer)
  /-- The word source presents no more, and not all of them came. -/
  | short (taken : List Word)
deriving DecidableEq, Repr

/-- `WordIn()`, `need` times, stopping at a failure (R17, R304, R420). -/
def takeWords (w : WordWidth) : Nat → List WordTransfer → WordRun
  | 0, rest => .all [] rest
  | _ + 1, [] => .short []
  | _ + 1, .err :: rest => .failed rest
  | need + 1, .word d :: rest =>
    match takeWords w need rest with
    | .all taken rest' => .all (seedWord w d :: taken) rest'
    | .failed rest' => .failed rest'
    | .short taken => .short (seedWord w d :: taken)

/-- The words that the SEED_WORDS of this width in flight has taken already; none for a command that has just been
accepted, so that no command reads the words of an earlier one (R111). -/
def State.stagedFor (s : State) (w : WordWidth) : List Word :=
  match s.phase with
  | .waiting w' staged => if w' = w then staged else []
  | _ => []

/-- The host has presented a command and the block is idle: the transfer samples CMD, ARG0 and ARG1 (R301). With no
command presented the block holds everything (R816). -/
def State.accept (s : State) : State :=
  match s.cmds with
  | [] => s
  | c :: cs => { s with phase := .accepted c, cmds := cs }

/-- The response port: if the host is ready it takes the response, and the block is ready for the next command (R301);
if not, the block holds (R912). -/
def State.deliver (s : State) (r : Response) : State :=
  if s.rspReady then { s with phase := .idle, responses := s.responses ++ [r] } else s

/-- The reset, as one event (R900): the state of R901, no command in flight and no response pending (R902 to R904).
What the host presents stays presented (log entry 5), and the request is over (log entry 4). -/
def State.takeReset (cfg : Config) (s : State) : State :=
  { s with gen := defaultState cfg, phase := .idle, rst := false }

end Sys2Proof.Machine
end

