-- ==== Sys2Proof/Machine/Generation.lean ====
section
/-! DEFINITION. The generating commands (41_generation.md): NEXT and DISCARD. Neither depends on the configuration, and
neither validates (R406). -/

namespace Sys2Proof.Machine

/-- NEXT: the result is the sum of the state before the step (R510). -/
def execNext (s : State) : Out :=
  .next (s.complete (genNext s.gen) ⟨.ok, genResult s.gen, 0⟩)

/-- DISCARD: exactly n steps, no results (R520). -/
def execDiscard (n : Word) (s : State) : Out :=
  .next (s.complete (genAdvance (countOperand n) s.gen) okResponse)

end Sys2Proof.Machine
end

