-- ==== Sys2Proof/Machine/Jumping.lean ====
section
/-! DEFINITION. The jump commands (42_jump.md): JUMP and JUMPN. Neither validates (R406). Each is written for any
configuration (`run…`), and for the default one (`exec…`), which `exec` calls. -/

namespace Sys2Proof.Machine

/-- JUMP (R610). -/
def runJump (cfg : Config) (s : State) : Out :=
  .next (s.complete (jump cfg s.gen) okResponse)

/-- JUMPN: exactly n jumps (R620). -/
def runJumpn (cfg : Config) (n : Word) (s : State) : Out :=
  .next (s.complete (jumpAdvance cfg (countOperand n) s.gen) okResponse)

/-- JUMP with the default configuration (R610). -/
def execJump (s : State) : Out := runJump Config.standard s

/-- JUMPN with the default configuration (R620). -/
def execJumpn (n : Word) (s : State) : Out := runJumpn Config.standard n s

end Sys2Proof.Machine
end

