-- ==== Sys2Proof/Machine/Seeding.lean ====
section
/-! DEFINITION. The seeding commands (40_seeding.md): SEED_U64, SEED_DEFAULT, SEED_WORDS, LOAD_STATE. Each is written for
any configuration (`run…`), and for the default one (`exec…`), which `exec` calls. -/

namespace Sys2Proof.Machine

/-- SEED_U64 (R410). -/
def runSeedU64 (cfg : Config) (value : Word) (s : State) : Out :=
  .next (s.seedWith cfg (expand cfg value))

/-- SEED_DEFAULT (R411). -/
def runSeedDefault (cfg : Config) (s : State) : Out :=
  .next (s.seedWith cfg (expand cfg cfg.defaultSeed))

/-- SEED_WORDS (R420 to R423): the words still needed are taken from the word source; when all k are there they are
packed and validated; at a failure the command ends with SRC_ERR and the state as it was; while words are missing the
command stays in flight, with the words taken so far staged (R111, R913; log entry 11). -/
def runSeedWords (cfg : Config) (w : WordWidth) (s : State) : Out :=
  let staged := s.stagedFor w
  match takeWords w (w.count - staged.length) s.words with
  | .all taken rest => .next ({ s with words := rest }.seedWith cfg (pack w (staged ++ taken)))
  | .failed rest => .next ({ s with words := rest }.raise .srcErr)
  | .short taken => .next { s with phase := .waiting w (staged ++ taken), words := [] }

/-- LOAD_STATE (R430). -/
def runLoadState (cfg : Config) (s0 s1 : Word) (s : State) : Out :=
  .next (s.seedWith cfg ⟨s0, s1⟩)

/-- SEED_U64 with the default configuration (R410). -/
def execSeedU64 (value : Word) (s : State) : Out := runSeedU64 Config.standard value s

/-- SEED_DEFAULT with the default configuration (R411). -/
def execSeedDefault (s : State) : Out := runSeedDefault Config.standard s

/-- SEED_WORDS with the default configuration (R420). -/
def execSeedWords (w : WordWidth) (s : State) : Out := runSeedWords Config.standard w s

/-- LOAD_STATE with the default configuration (R430). -/
def execLoadState (s0 s1 : Word) (s : State) : Out := runLoadState Config.standard s0 s1 s

end Sys2Proof.Machine
end

