-- ==== Sys2Proof/Machine/StateAccess.lean ====
section
/-! DEFINITION. The state access command (43_state_access.md): READ_STATE. -/

namespace Sys2Proof.Machine

/-- READ_STATE: S0 and S1 of one state, which stays as it is (R701, R207, R208). -/
def execReadState (s : State) : Out :=
  .next (s.respond ⟨.ok, s.gen.s0, s.gen.s1⟩)

end Sys2Proof.Machine
end

