-- ==== Sys2Proof/Machine/Dispatch.lean ====
section
/-! DEFINITION. One arm for each command: its meaning with the default configuration. -/

namespace Sys2Proof.Machine

def exec (i : Instr) (s : State) : Host.Outcome State Fault Refusal :=
  match i with
  | .seedU64 value => Sys2Proof.Machine.execSeedU64 value s
  | .seedDefault => Sys2Proof.Machine.execSeedDefault s
  | .seedWords width => Sys2Proof.Machine.execSeedWords width s
  | .loadState s0 s1 => Sys2Proof.Machine.execLoadState s0 s1 s
  | .next => Sys2Proof.Machine.execNext s
  | .discard n => Sys2Proof.Machine.execDiscard n s
  | .jump => Sys2Proof.Machine.execJump s
  | .jumpn n => Sys2Proof.Machine.execJumpn n s
  | .readState => Sys2Proof.Machine.execReadState s

end Sys2Proof.Machine
end

