-- ==== Sys2Proof/Machine/Ports.lean ====
section
/-! DEFINITION. What the host sees on the block's outputs (R300, R302 to R305, R903), and what the host can do to the
inputs between two steps (R13, R300). -/

namespace Sys2Proof.Machine

/-- CMD_READY: 1 exactly when no command is in flight and no reset is requested (R302, R903). -/
def State.cmdReady (s : State) : Bool := !s.rst && s.phase == .idle

/-- Whether a SEED_WORDS in flight still needs words (R304). -/
def State.needsWords (s : State) : Bool :=
  match s.phase with
  | .waiting w staged => decide (staged.length < w.count)
  | .accepted c => match decode c with
    | .ok (.seedWords _) => true
    | _ => false
  | .idle | .responding _ => false

/-- W_READY: 1 only while a SEED_WORDS command still needs words, and 0 during reset (R304, R903). -/
def State.wReady (s : State) : Bool := !s.rst && s.needsWords

/-- The response on the port: present exactly while RSP_VALID is 1 (R305, R902, R903). While it is 0 the data lines have
no value a model may read (93 I5). -/
def State.response? (s : State) : Option Response :=
  match s.rst, s.phase with
  | false, .responding r => some r
  | _, _ => none

/-- RSP_VALID (R300). -/
def State.rspValid (s : State) : Bool := s.response?.isSome

/-- What the host can do between two steps (R13, R300; log entry 2). -/
inductive EnvAction where
  /-- Present one more command, behind those presented (R911). The order in which several requesters' commands stand is
  an arbiter's, and free (R210; log entry 14). -/
  | present (c : Command)
  /-- The word source presents one more word or failure, behind those it presents (R304). -/
  | offer (x : WordTransfer)
  /-- The word source takes back every transfer that it presents and that has not been taken. DESIGN CHOICE (log
  entry 19): R911 has the host hold a command, and no rule says whether the word source holds a word; here it may keep
  it, take it back, or present others instead. -/
  | withdrawWords
  /-- Raise or lower RSP_READY (R912). -/
  | setReady (b : Bool)
  /-- Request a reset (R900). -/
  | requestReset
deriving DecidableEq, Repr

/-- The effect of an action of the host: on the inputs alone. A command, once presented, stays until it is accepted
(R911); a transfer of the word source stays until it is taken or `withdrawWords` takes it back (log entry 19), so a word
presented early is taken by a later SEED_WORDS if the word source still presents it then, and only if. -/
def EnvAction.apply (a : EnvAction) (s : State) : State :=
  match a with
  | .present c => { s with cmds := s.cmds ++ [c] }
  | .offer x => { s with words := s.words ++ [x] }
  | .withdrawWords => { s with words := [] }
  | .setReady b => { s with rspReady := b }
  | .requestReset => { s with rst := true }

/-- A line of a listing, presented on the ports (R313). -/
def State.presentLine (s : State) (l : Line) : State :=
  { s with cmds := s.cmds ++ [encode l.instr], words := s.words ++ l.words }

end Sys2Proof.Machine
end

