-- ==== Sys2Proof/Machine/Lifecycle.lean ====
section
/-! DEFINITION. The life of a command (R301), around a meaning given for each command: what `step` does. And `execWith`,
the meanings for any configuration. -/

namespace Sys2Proof.Machine

/-- The meaning of each command for an instance configured as cfg (R10: a model takes the configuration as an argument).
`exec` is this one at the default configuration. -/
def execWith (cfg : Config) (i : Instr) (s : State) : Out :=
  match i with
  | .seedU64 value => runSeedU64 cfg value s
  | .seedDefault => runSeedDefault cfg s
  | .seedWords width => runSeedWords cfg width s
  | .loadState s0 s1 => runLoadState cfg s0 s1 s
  | .next => execNext s
  | .discard n => execDiscard n s
  | .jump => runJump cfg s
  | .jumpn n => runJumpn cfg n s
  | .readState => execReadState s

/-- An accepted command runs, or is answered with ILLEGAL: the checks of R311 come before anything else (R805). -/
def runAccepted (ex : Instr → State → Out) (c : Command) (s : State) : Out :=
  match decode c with
  | .ok i => ex i s
  | .error _ => .next (s.raise .illegal)

/-- One step of the block. A requested reset comes before everything (R805). The degenerate state is a fault (R103; log
entry 9). Otherwise the block goes on from its phase: it accepts a command, runs the one accepted, takes up a SEED_WORDS
that waits for words, or hands its response to the host (R301, R302, R912, R913). A hold leaves the state as it is (log
entry 3). -/
def lifecycle (cfg : Config) (ex : Instr → State → Out) (s : State) : Out :=
  if s.rst then .next (s.takeReset cfg)
  else if s.gen = GenState.degenerate then .fault .degenerateState
  else match s.phase with
    | .idle => .next s.accept
    | .accepted c => runAccepted ex c s
    | .waiting w _ => ex (.seedWords w) s
    | .responding r => .next (s.deliver r)

/-- The state in which the sample c is the command accepted, so that the next step runs it: no reset is requested, and
the word source presents the words the command takes, all zero (log entry 7). -/
def State.withAccepted (s : State) (c : Command) : State :=
  { s with
    rst := false
    phase := .accepted c
    words := match decode c with
      | .ok (.seedWords w) => List.replicate w.count (.word 0)
      | _ => s.words }

end Sys2Proof.Machine
end

