-- ==== Sys2Proof/Machine/Step.lean ====
section
/-! DEFINITION. One step of the machine. -/

namespace Sys2Proof.Machine

/-- One step of an instance configured as cfg; a configuration that breaks the premise of R10 is refused. -/
def stepWith (cfg : Config) (s : State) : Host.Outcome State Fault Refusal :=
  if cfg.wellFormed then lifecycle cfg (execWith cfg) s else .refused .configurationRefused

/-- One step of the block with the default configuration. -/
def step (s : State) : Host.Outcome State Fault Refusal := lifecycle Config.standard exec s

/-- s with the command whose bits are w accepted, so that the next step runs it (log entries 7 and 8). -/
def State.withFetchWord (s : State) (nbits w : Nat) : State := s.withAccepted (commandOfBits nbits w)

end Sys2Proof.Machine
end

