-- ==== Sys2Proof/Machine/JumpMatrix.lean ====
section
/-! DEFINITION. The jump as a GF(2) matrix: the 128 row masks of R606 and the map they describe. The block's JUMP is the
accumulator loop of R601 (`jump`); this is the other form R605 permits, and a statement says that the two agree. -/

namespace Sys2Proof.Machine

/-- Rows 0 to 15 of the table of R606: the masks over the old S0 and the old S1. -/
def jumpRows0 : List (Word × Word) :=
  [(0x8D9C2196778DB33F, 0x8A8E430308715117),
   (0xDDEF9E3CF58BE2EC, 0x48A607068F778A31),
   (0x4C4B8201C8CC87C4, 0x312BEAA0539AD885),
   (0x9CA73000DB424C1E, 0x43B35B7CADD9BE1C),
   (0xAC75C2D95AE6B37E, 0x9BCFC39D707BEEEE),
   (0xF05E22AA773183C3, 0x72F0D7FB5B1499F5),
   (0x301902D453C80050, 0x5844873E355C4315),
   (0x808CC97ED1D9302A, 0xEC47EF02DC2B66F1),
   (0xD2152C85446FF3DA, 0x9A89D6499C5F9EFA),
   (0x6A5857E96F9E934C, 0x4FB4FD523ED94BF3),
   (0xDC02080894CDCAF9, 0xC17D4BBA32A820E1),
   (0x1F819B59FBDBCD6A, 0x6E9B613ED27DB9A7),
   (0x48CC22C3F855D689, 0xE9D5A3B9398B5405),
   (0x147DB6B03970431F, 0xE6156B9BE380362E),
   (0x34D07A4CFD5072D1, 0xD301480B6978FD25),
   (0x21EBB5C5E738F40D, 0xC1E3456C3CF26B07)]

/-- Rows 16 to 31 of the table of R606: the masks over the old S0 and the old S1. -/
def jumpRows1 : List (Word × Word) :=
  [(0x1015445C0ECC38CF, 0xCAFE3564E7722F4A),
   (0x5A564A2CE7DB78F0, 0x959D5DFCC76337A4),
   (0xCCAB01E5C6CE279A, 0x3D85580507D55DA9),
   (0x1D4C36237EE59FF4, 0xD325A0C4BBD832A3),
   (0xC57BDC8DD60A82FA, 0xDCBC183FD2B886A4),
   (0x4E8139B382AFDF2E, 0xE7360318AF16AAA3),
   (0x218B3A61361106F7, 0xB0650FB63B6105E7),
   (0x6E856C1DCD1FF608, 0xD3D4E9519FDA60A4),
   (0xC65626B795FA9A63, 0xB82430D56B7F416D),
   (0xC8FA8FBB758403CB, 0x96AAACCE2EB7F085),
   (0xB3D08955D3C00C1C, 0x49332A485E058E04),
   (0x9E1814CED1610ADF, 0xA283F844764F219D),
   (0x9111F3E7E059D1F5, 0x2283CBE781B382E9),
   (0x95A707F552BE5AD7, 0xC2561F3CAD4BEA5C),
   (0x476D45BCEFFFFE24, 0xC0CDA28EC94A274B),
   (0x5D9B7C5115F23541, 0xAFAE68EFDB0F36AE)]

/-- Rows 32 to 47 of the table of R606: the masks over the old S0 and the old S1. -/
def jumpRows2 : List (Word × Word) :=
  [(0xC2E064A30D23A445, 0x96149572D8B941BE),
   (0x954223E37EBFBF6A, 0x1B21632C3BFE5DBF),
   (0x04EDE01ABBD4E078, 0x3D069D3E163EEAEA),
   (0x34AC101CC2C2F40D, 0x8D9A9B8BFFE0EC2A),
   (0x186852D93B17B1E2, 0x7143138F19B7BB3E),
   (0x5C09BEB0F8D94268, 0x43542486E0D798EE),
   (0x7936AFE68B2E6A4A, 0xC89E1F682A1C0D58),
   (0x6A011DC85FB222B4, 0x5844DAFA50152E1A),
   (0xE035053D8EE2881D, 0x8857CDF9FF9CCA27),
   (0x4FB0523216068230, 0x061A249CE3EA5756),
   (0xEBABCF372DEECE8B, 0x50CA9B19AD23B8E9),
   (0x1260E9BF66FF44B6, 0xCDD7E9F0B4A3B335),
   (0x11915522DC939B95, 0x810027045D06F2C2),
   (0xC13EB0135DB4EE9A, 0x83AAF7A863FB2225),
   (0x2661DFF27D18445B, 0xFB6C3656B54A419D),
   (0x0A96BC50863ADA18, 0x6434C0DEBFE4B428)]

/-- Rows 48 to 63 of the table of R606: the masks over the old S0 and the old S1. -/
def jumpRows3 : List (Word × Word) :=
  [(0x92C7C28DF0D732C1, 0x936CE24CBE486521),
   (0x6F616E609273AB59, 0x96EDEFEF4CA0704F),
   (0x252ADA500B60BBF1, 0xCA1E38E966301D7F),
   (0x4DF4A9E15CD18BBB, 0xEF7B02E66941A386),
   (0xA58C43548D0849B2, 0x5F7B8AEC5215D788),
   (0x799CAC80BD7626C5, 0xC698E40857C59F26),
   (0x27AA347B4A275D81, 0x73BF617F102E609C),
   (0x6F597A8303DEC9B0, 0x8C13477E3CD37F94),
   (0x5DEDD39976A01876, 0x4C5627E6D3230506),
   (0x7CBAA88B939EB149, 0xAC39A33D23967B32),
   (0x4D6515BFBA467ADB, 0x4ACF07E916E0F29B),
   (0xB931B53D34F88DBE, 0x748C80E9D0CFA000),
   (0x751BDD2D44FB417B, 0xA46180D4D1564A97),
   (0x13A9A1F8A77922B8, 0x787C145E82A7B694),
   (0x800E98CF048949EE, 0x8FF50DEAF7487D04),
   (0x28EAC71B5512E457, 0x5C9F84398D6568A9)]

/-- Rows 64 to 79 of the table of R606: the masks over the old S0 and the old S1. -/
def jumpRows4 : List (Word × Word) :=
  [(0x629E58678A09D651, 0x7823BCA6BFD493DD),
   (0x6BCA7EFEEF71A51D, 0x3CC0DD9D242DFE63),
   (0x8DBD046E39C1D86A, 0x16C39539123E7B7E),
   (0xCC73CA0878F5B30E, 0xFC1E21B84B28FEB9),
   (0x28FD0B3C16CF29E4, 0x06AA65E62BC4FC1D),
   (0x3D27A64543D12488, 0xE41D35BD98DB36AA),
   (0xF0BB193729ED533E, 0x4AEBC4D304B32F11),
   (0x24470DA38793545A, 0x8BF5A744D1BF4005),
   (0xE9C9F11F2381418F, 0x44C7168B04EED65F),
   (0x5FE8EEE490B64EE1, 0x3B85CF603DCC74B9),
   (0xBA75D50CD945EBC0, 0x6D73117021885F37),
   (0x2B6ACAE67A1E0FB9, 0x408147C4E090AB15),
   (0x455D2833FC9076D3, 0xD5B61412BB5A9343),
   (0x64DE0887E2368BA7, 0xFC358009D530C3AE),
   (0x97E4D085247DD0CE, 0x703F78200854CC5B),
   (0x64D7ECA555E16F64, 0xEF85BBF9B0E60280)]

/-- Rows 80 to 95 of the table of R606: the masks over the old S0 and the old S1. -/
def jumpRows5 : List (Word × Word) :=
  [(0x6DF3D368A1271A23, 0x25DEC0CE3B729C9D),
   (0x83E770B1A76C590A, 0xF5221D7FF9A6CB47),
   (0x1CED71D09548EB64, 0x9EB660A978A407E5),
   (0x8FB9C7EFFA393F1E, 0x31BA495C62FE217B),
   (0x5F949A3F0262659A, 0x341605E6A7EA1BAF),
   (0x6B25B6CA3EB6AC47, 0x843880CD31DA1EBC),
   (0x1385F5D5C293E1E8, 0x83B80B88DC4CF5A4),
   (0xE474FA2B30AD13DF, 0x46883E13742392B2),
   (0x09CC7C82875F4D38, 0x9FE9C2CA9707ED80),
   (0x27F19BAC5591C9E6, 0xAFA4C453186777CA),
   (0x1DCD26E927DB1094, 0xCEF8189F9130D4D0),
   (0x1F84FB35AB57BC66, 0x109E9EEE013A1FFC),
   (0xA4C3A7D0CFE0B68C, 0x2BE150C4BDA64755),
   (0xB8D3F41A96B27502, 0x7BDF110D8A0DFF5E),
   (0x21F94CE2A55A2D01, 0xDC5177A3005F2175),
   (0xF2CD188C31819A1A, 0xE76C1CC3141A846D)]

/-- Rows 96 to 111 of the table of R606: the masks over the old S0 and the old S1. -/
def jumpRows6 : List (Word × Word) :=
  [(0x72B7FB877925B892, 0xDC55727B32EC9538),
   (0x3EA448D5A8735787, 0xFF8B829D4F7BA528),
   (0xB22C676338EDD55F, 0xFDF574144FA1A22C),
   (0xD3EB3FAC0DC85026, 0xE4C6F3341642FC49),
   (0xD20ED7C32A2510D3, 0x28C7A8D20A0605DC),
   (0xD1E1219D2CD8D019, 0x1F61728A584BC820),
   (0x2AF30F7CFB5854FE, 0x70F1A640D1BDB298),
   (0xDAF7BCC06622A35F, 0x3D27B706559ADDA7),
   (0x348CF6B7CF0BCB44, 0xE6BE598A9E982FF4),
   (0x0A2DCA3354FB9784, 0xFF96B359CC000C2B),
   (0xB56906AC0725E51F, 0xC7A958CA7C490E52),
   (0x4261BCC64DADEF21, 0x320FF6225D2FD06B),
   (0x7872C90EAC7FAFFD, 0x0F456A6A63DE8071),
   (0x73A0C0C59FFE1EF1, 0xFFD5E4307903C749),
   (0x77E53CC3E72F542F, 0x700B744DBEAB99D0),
   (0x308D78BBA2D99468, 0x2DA0DBC1E979C747)]

/-- Rows 112 to 127 of the table of R606: the masks over the old S0 and the old S1. -/
def jumpRows7 : List (Word × Word) :=
  [(0x8E18F95EADC30A33, 0xA687A79B2797696C),
   (0x9C3541AAD2F6FB1E, 0x2ED45458617DAEDE),
   (0xB080054D715C00C9, 0x545F4C713BCF7660),
   (0x7735AD53FA9F66F9, 0x3C4E50359528F10C),
   (0x9DC963314F39F5C8, 0xFFC7AF872EBE1BE1),
   (0x8CDC873D0F3F396E, 0xD0EF971EC61F4CC2),
   (0x5939BAA44C967BCB, 0x97613DEFA0BE6EED),
   (0x9938350C2A2EFD59, 0x738463A7BA5B8742),
   (0x35B922ADB5D09D3D, 0xA34D774DD13E9904),
   (0xBB23550656116AE3, 0xCC486B9D82F3A5E9),
   (0xAE00E9E5C509D78B, 0x5B333EF9DDF55D88),
   (0xE08FD6A0BA0B258B, 0xB703FB175D083DD0),
   (0xDB742BD415776EBD, 0x65F978DFCBAB41B4),
   (0xB16B02BE450B62A6, 0x922F1C48867AF8F7),
   (0x2E14EB4EB59D9723, 0x7921B81A9DF61CAD),
   (0x6C19C0C4A886A1C4, 0xCE13DBFDE051609D)]

/-- The rows that give the new S0 (R606). -/
def jumpRowsS0 : List (Word × Word) := jumpRows0 ++ jumpRows1 ++ jumpRows2 ++ jumpRows3

/-- The rows that give the new S1 (R606). -/
def jumpRowsS1 : List (Word × Word) := jumpRows4 ++ jumpRows5 ++ jumpRows6 ++ jumpRows7

/-- The parity of a word: the exclusive OR of its bits (R606). -/
def parity (w : Word) : Bool := (List.range 64).foldl (fun p b => p ^^ w.getLsbD b) false

/-- One output bit of the jump matrix (R606). -/
def rowBit (g : GenState) (row : Word × Word) : Bool := parity ((g.s0 &&& row.1) ^^^ (g.s1 &&& row.2))

/-- The word whose bits are given, bit 0 first. -/
def wordOfBits : List Bool → Word
  | [] => 0
  | b :: bs => (wordOfBits bs <<< 1) ||| (if b then 1 else 0)

/-- The jump as a multiplication by the matrix J (R605, R606). -/
def jumpByMatrix (g : GenState) : GenState :=
  ⟨wordOfBits (jumpRowsS0.map (rowBit g)), wordOfBits (jumpRowsS1.map (rowBit g))⟩

end Sys2Proof.Machine
end

