-- ==== Sys2Proof/Machine/Schedule.lean ====
section
/-! DEFINITION. Runs in an environment: steps of the block with actions of the host between them, in any order. -/

namespace Sys2Proof.Machine

/-- What happens next: the host acts, or the block takes a step. -/
inductive Event where
  | env (a : EnvAction)
  | block
deriving DecidableEq, Repr

/-- One event. -/
def Event.run (e : Event) (s : State) : Out :=
  match e with
  | .env a => .next (a.apply s)
  | .block => step s

/-- The events in order, to the first fault or refusal. Quantifying over every list of events leaves the host free: when
it presents, offers, takes, resets, and in which order (R209, R210). -/
def runEvents : List Event → State → Out
  | [], s => .next s
  | e :: es, s =>
    match e.run s with
    | .next t => runEvents es t
    | .fault f => .fault f
    | .refused r => .refused r

end Sys2Proof.Machine
end

