-- ==== Sys2Proof/Safety.lean ====
section
/-! DEFINITION. What counts as a safe state and a safe run. -/

namespace Sys2Proof.Machine

/-- What the command in flight may hold: a SEED_WORDS that waits has fewer than k words, each of W bits (R111, R422); an
error response carries zero data (R305). -/
def Phase.sound : Phase → Bool
  | .waiting w staged => decide (staged.length < w.count) && staged.all (fun x => decide (x.toNat < 2 ^ w.bits))
  | .responding r => r.status == .ok || (r.data0 == 0 && r.data1 == 0)
  | .idle | .accepted _ => true

/-- The invariant: (S0, S1) is not (0, 0) (R102), and the command in flight is sound. -/
abbrev Inv (s : State) : Prop := s.gen ≠ GenState.degenerate ∧ s.phase.sound = true

/-- An outcome is safe if the machine goes on, to a state that meets the invariant. -/
def SafeOut (o : Out) : Prop := ∃ t, o = .next t ∧ Inv t

end Sys2Proof.Machine
end

