-- ==== Sys2Proof/Certificates/Slice0/Obligations.lean ====
section
/-! DEFINITION. The statements about the machine. Each docstring names the rule or the section of the spec it
formalises. `step`, `exec` and `Config.standard` are the machine with the default configuration, whose SEED_EXPAND,
JUMP0 and JUMP1 the spec takes from general knowledge (log entry 1); a statement over `cfg` holds for any. -/

open Sys2Proof Sys2Proof.Machine

/-! ## Encoding -/

/-- R310: the opcode assignment, each legal command word written out bit by bit (RSV, WSEL, OP), with the operands the
table gives it; the reserved OP values are rejected. -/
def Obligations.CommandWordsDecodeAsAssigned : Prop :=
  ∀ a b : Word,
    decode ⟨0b00000001, a, b⟩ = .ok (.seedU64 a) ∧
    decode ⟨0b00000010, a, b⟩ = .ok .seedDefault ∧
    decode ⟨0b00000011, a, b⟩ = .ok (.seedWords .w8) ∧
    decode ⟨0b00010011, a, b⟩ = .ok (.seedWords .w16) ∧
    decode ⟨0b00100011, a, b⟩ = .ok (.seedWords .w32) ∧
    decode ⟨0b00110011, a, b⟩ = .ok (.seedWords .w64) ∧
    decode ⟨0b00000100, a, b⟩ = .ok (.loadState a b) ∧
    decode ⟨0b00000101, a, b⟩ = .ok .next ∧
    decode ⟨0b00000110, a, b⟩ = .ok (.discard a) ∧
    decode ⟨0b00000111, a, b⟩ = .ok .jump ∧
    decode ⟨0b00001000, a, b⟩ = .ok (.jumpn a) ∧
    decode ⟨0b00001001, a, b⟩ = .ok .readState ∧
    (∀ c : Command, c.op = 0x0 ∨ c.op = 0xA ∨ c.op = 0xB ∨ c.op = 0xC ∨ c.op = 0xD ∨ c.op = 0xE ∨ c.op = 0xF →
      ∃ e, decode c = .error e)

/-- R308: WSEL selects the width W and the number of words k = 128 / W, and no other width decodes. -/
def Obligations.WidthSelectGivesWidthAndCount : Prop :=
  (widthOfWsel 0b00).bits = 8 ∧ (widthOfWsel 0b00).count = 16 ∧
  (widthOfWsel 0b01).bits = 16 ∧ (widthOfWsel 0b01).count = 8 ∧
  (widthOfWsel 0b10).bits = 32 ∧ (widthOfWsel 0b10).count = 4 ∧
  (widthOfWsel 0b11).bits = 64 ∧ (widthOfWsel 0b11).count = 2 ∧
  seqWords = (widthOfWsel 0b10).count ∧
  ∀ c w, decode c = .ok (.seedWords w) → w = widthOfWsel c.wsel ∧ w.count = 128 / w.bits

/-- R311: the three checks in their order, the 12 legal words, and that an illegal word raises ILLEGAL before any state
is read or any seed word is taken (the state and the words presented are as they were). -/
def Obligations.DecodeChecksInOrder : Prop :=
  (∀ c : Command,
    (c.rsv ≠ 0 → decode c = .error .reservedBits) ∧
    (c.rsv = 0 → (c.op = 0 ∨ 0xA ≤ c.op.toNat) → decode c = .error .reservedOpcode) ∧
    (c.rsv = 0 → ¬ (c.op = 0 ∨ 0xA ≤ c.op.toNat) → c.op ≠ 3 → c.wsel ≠ 0 → decode c = .error .strayWidth) ∧
    ((∃ i, decode c = .ok i) ↔
      c.cmd ∈ [0x01, 0x02, 0x03, 0x13, 0x23, 0x33, 0x04, 0x05, 0x06, 0x07, 0x08, 0x09])) ∧
  ((List.range 256).filter (fun n => (decode ⟨BitVec.ofNat 8 n, 0, 0⟩).toBool)).length = 12 ∧
  (∀ (s : State) (c : Command) (e : DecodeError), s.rst = false → s.gen ≠ GenState.degenerate →
    s.phase = .accepted c → decode c = .error e →
    step s = .next { s with phase := .responding ⟨.illegal, 0, 0⟩ })

/-- 30_encoding.md sections 2 and 3: decoding what `encode` writes gives the command back, with every operand at every
value; a sample that decodes is the encoding of what it decodes to, up to the operands the command does not use; and
the samples that decode are the well-formed ones. -/
def Obligations.DecodeEncodeRoundTrip : Prop :=
  (∀ i : Instr, decode (encode i) = .ok i) ∧
  (∀ (c : Command) (i : Instr), decode c = .ok i →
    (encode i).cmd = c.cmd ∧
    ((encode i).arg0 = c.arg0 ∨ (encode i).arg0 = 0 ∧ c.op.toNat ∉ [1, 4, 6, 8]) ∧
    ((encode i).arg1 = c.arg1 ∨ (encode i).arg1 = 0 ∧ c.op.toNat ≠ 4)) ∧
  (∀ c : Command, (∃ i, decode c = .ok i) ↔ c.wellFormed = true)

/-- R303: the operands are those sampled at acceptance; one that the command does not use neither changes what a command
word means nor makes it illegal. -/
def Obligations.UnusedOperandsIgnored : Prop :=
  (∀ c c' : Command, c.cmd = c'.cmd →
    ((∃ i, decode c = .ok i) ↔ (∃ i, decode c' = .ok i)) ∧
    (c.op.toNat ∉ [1, 4, 6, 8] → decode c = decode c') ∧
    (c.op.toNat ≠ 4 → c.arg0 = c'.arg0 → decode c = decode c')) ∧
  (∀ (s : State) (c : Command) (cs : List Command), s.rst = false → s.gen ≠ GenState.degenerate → s.phase = .idle →
    s.cmds = c :: cs →
    ∃ t, step s = .next t ∧ t.phase = .accepted ⟨c.cmd, c.arg0, c.arg1⟩ ∧
      ∀ later : List Command, step { t with cmds := later } =
        match step t with
        | .next u => .next { u with cmds := later }
        | .fault f => .fault f
        | .refused r => .refused r)

/-- R314: the expansions of the pseudo-commands; each expansion is a well-formed line, and NOP changes no state. -/
def Obligations.PseudoCommandsExpand : Prop :=
  Pseudo.seed.expand = ⟨.seedDefault, []⟩ ∧
  (∀ w0 w1 w2 w3, (Pseudo.seedSeq w0 w1 w2 w3).expand =
    ⟨.seedWords .w32, [.word w0, .word w1, .word w2, .word w3]⟩) ∧
  (∀ a b, (Pseudo.seedGen64 a b).expand = ⟨.seedWords .w64, [.word a, .word b]⟩) ∧
  (∀ v, (Pseudo.seedFromInteger v).expand = ⟨.seedU64 v, []⟩) ∧
  Pseudo.nop.expand = ⟨.discard 0, []⟩ ∧
  (∀ p : Pseudo, p.expand.wellFormed = true) ∧
  (∀ s : State, exec Pseudo.nop.expand.instr s = .next { s with phase := .responding ⟨.ok, 0, 0⟩ })

/-! ## The life of a command -/

/-- 30_encoding.md section 1 (R301): when no reset is requested and the state is not degenerate (R114's premise), a step
with an accepted command runs exactly the command it decodes to, and a step with a waiting SEED_WORDS takes that command
up. The last clause says so of the state that `withFetchWord` makes (log entry 7). -/
def Obligations.StepRunsAcceptedCommand : Prop :=
  (∀ (s : State) (c : Command) (i : Instr), s.rst = false → s.gen ≠ GenState.degenerate → s.phase = .accepted c →
    decode c = .ok i → step s = exec i s) ∧
  (∀ (s : State) (w : WordWidth) (staged : List Word), s.rst = false → s.gen ≠ GenState.degenerate →
    s.phase = .waiting w staged → step s = exec (.seedWords w) s) ∧
  (∀ (s : State) (nbits w : Nat) (i : Instr), s.gen ≠ GenState.degenerate → decodeTableWord nbits w = some i →
    step (s.withFetchWord nbits w) = exec i (s.withFetchWord nbits w))

/-- R302: CMD_READY is 1 exactly when no command is in flight and no reset is requested; while it is 0 no command is
taken from the port; and a command in flight stops being in flight only by the host taking its response, or by a
reset. -/
def Obligations.BusyFromAcceptanceToResponse : Prop :=
  (∀ s : State, s.cmdReady = true ↔ s.rst = false ∧ s.phase = .idle) ∧
  (∀ (s : State) (c : Command) (cs : List Command), s.gen ≠ GenState.degenerate → s.cmdReady = true →
    s.cmds = c :: cs → step s = .next { s with phase := .accepted c, cmds := cs }) ∧
  (∀ s t : State, s.cmdReady = false → step s = .next t → t.cmds = s.cmds) ∧
  (∀ s t : State, s.phase ≠ .idle → step s = .next t → t.phase = .idle →
    s.rst = true ∨ ∃ r, s.phase = .responding r ∧ s.rspReady = true ∧ t.responses = s.responses ++ [r])

/-- 70_reset_and_hazards.md sections 1 and 3 (R912): the block holds its response until the host takes it, and only then is
ready for the next command; the hold is lifted by nothing else but a reset. The model's choices here: a hold is a step
that changes nothing (log entry 3, DESIGN CHOICE), and a reset drops the pending response (log entry 17, DEDUCED). -/
def Obligations.ResponseHeldUntilTaken : Prop :=
  ∀ (s : State) (r : Response), s.gen ≠ GenState.degenerate → s.phase = .responding r →
    (s.rst = false → s.rspReady = false → step s = .next s) ∧
    (s.rst = false → s.rspReady = true →
      step s = .next { s with phase := .idle, responses := s.responses ++ [r] }) ∧
    (s.rst = true → ∃ t, step s = .next t ∧ t.phase = .idle ∧ t.responses = s.responses)

/-- R305: the status codes; exactly one response for each accepted command, in acceptance order (a step without a reset
keeps the number of commands presented, in flight and answered, and only ever appends the pending response to those
taken); and the data: the result for NEXT, S0 and S1 for READ_STATE, zero for every other command and every error. -/
def Obligations.OneResponsePerAcceptedCommand : Prop :=
  Status.ok.code = 0b00 ∧ Status.illegal.code = 0b01 ∧ Status.srcErr.code = 0b10 ∧ (∀ e : Status, e.code ≠ 0b11) ∧
  (∀ s t : State, s.rst = false → step s = .next t →
    t.responses.length + (if t.phase = .idle then 0 else 1) + t.cmds.length =
      s.responses.length + (if s.phase = .idle then 0 else 1) + s.cmds.length ∧
    (t.responses = s.responses ∨
      ∃ r, s.phase = .responding r ∧ t.phase = .idle ∧ t.responses = s.responses ++ [r])) ∧
  (∀ (s t : State) (r : Response), step s = .next t → t.phase = .responding r → (∀ r', s.phase ≠ .responding r') →
    ((∃ c, s.phase = .accepted c ∧ decode c = .ok .next) → r = ⟨.ok, s.gen.s0 + s.gen.s1, 0⟩) ∧
    ((∃ c, s.phase = .accepted c ∧ decode c = .ok .readState) → r = ⟨.ok, s.gen.s0, s.gen.s1⟩) ∧
    ((¬ ∃ c, s.phase = .accepted c ∧ (decode c = .ok .next ∨ decode c = .ok .readState)) →
      r.data0 = 0 ∧ r.data1 = 0))

/-- R801 and R802: each of the 244 words that fails a check of R311 raises ILLEGAL and does nothing else; once the host
has taken the response the next command is accepted as usual. -/
def Obligations.IllegalCommandOnlyResponds : Prop :=
  (∀ c : Command, (¬ ∃ i, decode c = .ok i) ↔
    (c.rsv ≠ 0 ∨ c.op = 0x0 ∨ 0xA ≤ c.op.toNat ∨ (c.wsel ≠ 0 ∧ c.op ≠ 0x3))) ∧
  ((List.range 256).filter (fun n => !(decode ⟨BitVec.ofNat 8 n, 0, 0⟩).toBool)).length = 244 ∧
  (∀ (s : State) (c : Command), s.rst = false → s.gen ≠ GenState.degenerate → s.phase = .accepted c →
    (¬ ∃ i, decode c = .ok i) →
    step s = .next { s with phase := .responding ⟨.illegal, 0, 0⟩ } ∧
    (s.rspReady = true → ∀ (d : Command) (ds : List Command), s.cmds = d :: ds →
      runEvents [.block, .block, .block] s =
        .next { s with phase := .accepted d, cmds := ds, responses := s.responses ++ [⟨.illegal, 0, 0⟩] }))

/-- R804: a command other than SEED_WORDS always responds OK, whatever its operands and the state are (its frame: it
changes S0 and S1, the response, and nothing else); and no command ends with any error but SRC_ERR, which is
SEED_WORDS's alone. -/
def Obligations.OtherCommandsAlwaysRespondOk : Prop :=
  (∀ (i : Instr) (s : State), (∀ w, i ≠ .seedWords w) →
    ∃ g d0 d1, exec i s = .next { s with gen := g, phase := .responding ⟨.ok, d0, d1⟩ }) ∧
  (∀ (i : Instr) (s t : State) (r : Response), exec i s = .next t → t.phase = .responding r →
    r.status = .ok ∨ (r.status = .srcErr ∧ ∃ w, i = .seedWords w))

/-- 30_encoding.md section 1 (R304) and 40_seeding.md section 3 (R422, R423): W_READY is 1 only while a SEED_WORDS still
needs words; while W_READY is 0 no word is taken, and a word presented then has no effect: whatever the word source
presents instead, the step is the same, but for those words, which stay presented. A transfer delivers the word on WDATA,
cut to W bits (R422), or the failure. The model's choice here: the failing transfer is itself taken (log entry 12,
DEDUCED). -/
def Obligations.WordPortServesSeedWordsOnly : Prop :=
  (∀ s : State, s.wReady = true ↔ s.rst = false ∧
    ((∃ w staged, s.phase = .waiting w staged ∧ staged.length < w.count) ∨
      ∃ c w, s.phase = .accepted c ∧ decode c = .ok (.seedWords w))) ∧
  (∀ s t : State, s.wReady = false → step s = .next t → t.words = s.words) ∧
  (∀ (s : State) (xs : List WordTransfer), s.wReady = false →
    step { s with words := xs } =
      match step s with
      | .next t => .next { t with words := xs }
      | .fault f => .fault f
      | .refused r => .refused r) ∧
  (∀ (i : Instr) (s t : State), (∀ w, i ≠ .seedWords w) → exec i s = .next t → t.words = s.words) ∧
  (∀ (w : WordWidth) (d : Word) (rest : List WordTransfer),
    takeWords w 1 (.word d :: rest) = .all [BitVec.ofNat 64 (d.toNat % 2 ^ w.bits)] rest ∧
    takeWords w 1 (.err :: rest) = .failed rest)

/-- 10_state.md section 3 (R112): a step changes S0 and S1 only when it completes a command with status OK, or takes a
reset; and only a reset ends an accepted or waiting command without its response. -/
def Obligations.StateWrittenOnlyAtCompletion : Prop :=
  (∀ s t : State, step s = .next t → t.gen ≠ s.gen →
    s.rst = true ∨
      (((∃ c, s.phase = .accepted c) ∨ ∃ w staged, s.phase = .waiting w staged) ∧
        ∃ r, t.phase = .responding r ∧ r.status = .ok)) ∧
  (∀ s t : State, step s = .next t → ((∃ c, s.phase = .accepted c) ∨ ∃ w staged, s.phase = .waiting w staged) →
    s.rst = true ∨ (∃ r, t.phase = .responding r) ∨ ∃ w staged, t.phase = .waiting w staged ∧ t.gen = s.gen)

/-! ## Seeding -/

/-- R404: the validator, for any configuration; a configuration that breaks the premise of R10 is refused, so the
re-seed needs no second check. -/
def Obligations.ValidateReseedsOnlyDegenerate : Prop :=
  ∀ cfg : Config,
    (∀ a b : Word, validate cfg ⟨a, b⟩ =
      if a = 0 ∧ b = 0 then ⟨(cfg.seedExpand cfg.defaultSeed).1, (cfg.seedExpand cfg.defaultSeed).2⟩ else ⟨a, b⟩) ∧
    (∀ s : State, cfg.seedExpand cfg.defaultSeed = (0, 0) → stepWith cfg s = .refused .configurationRefused) ∧
    (cfg.seedExpand cfg.defaultSeed ≠ (0, 0) → ∀ g : GenState, validate cfg g ≠ ⟨0, 0⟩)

/-- 40_seeding.md sections 1 to 4 (R400, R405, R410, R411, R420, R430) and 70_reset_and_hazards.md section 1 (R901): for any configuration,
each of the four seeding commands and reset writes the validated candidate, never the raw one, and each of the commands
responds OK with zero data whether the validator re-seeded or not. For SEED_WORDS the candidate is the packing of the
words staged and the words it takes from the port, each cut to W bits: with all of them presented it completes so, and
in a state whose command in flight is sound (`Phase.sound`, part of `Inv`) it completes in no other way. The model's
choice here: one step takes all the words presented that it still needs (log entry 11, DESIGN CHOICE). -/
def Obligations.SeedingEndsWithValidation : Prop :=
  ∀ (cfg : Config) (s : State),
    (∀ v, execWith cfg (.seedU64 v) s =
      .next { s with gen := validate cfg ⟨(cfg.seedExpand v).1, (cfg.seedExpand v).2⟩, phase := .responding ⟨.ok, 0, 0⟩ }) ∧
    (execWith cfg .seedDefault s = execWith cfg (.seedU64 cfg.defaultSeed) s) ∧
    (∀ a b, execWith cfg (.loadState a b) s =
      .next { s with gen := validate cfg ⟨a, b⟩, phase := .responding ⟨.ok, 0, 0⟩ }) ∧
    (∀ (w : WordWidth) (ds : List Word) (rest : List WordTransfer), (s.stagedFor w).length + ds.length = w.count →
      s.words = ds.map .word ++ rest →
      execWith cfg (.seedWords w) s = .next { s with
        gen := validate cfg (pack w (s.stagedFor w ++ ds.map (seedWord w)))
        phase := .responding ⟨.ok, 0, 0⟩
        words := rest }) ∧
    (∀ w t r, s.phase.sound = true → execWith cfg (.seedWords w) s = .next t → t.phase = .responding r →
      r.status = .ok →
      r = ⟨.ok, 0, 0⟩ ∧ ∃ (ds : List Word) (rest : List WordTransfer),
        (s.stagedFor w).length + ds.length = w.count ∧ s.words = ds.map .word ++ rest ∧ t.words = rest ∧
        t.gen = validate cfg (pack w (s.stagedFor w ++ ds.map (seedWord w)))) ∧
    (s.rst = true → cfg.wellFormed = true → ∃ t, stepWith cfg s = .next t ∧
      t.gen = validate cfg ⟨(cfg.seedExpand cfg.defaultSeed).1, (cfg.seedExpand cfg.defaultSeed).2⟩)

/-- 40_seeding.md section 1 (R403): with the default expander, whose function is general knowledge (log entry 1), `mix`
is a bijection that fixes 0, no seed expands to (0, 0), the two seeds with one zero word are those named, and so the
validator never changes an expansion. -/
def Obligations.ExpansionNeverDegenerate : Prop :=
  Function.Bijective splitMix ∧ splitMix 0 = 0 ∧
  (∀ v : Word, splitMixExpand v ≠ (0, 0)) ∧
  (∀ v : Word, (splitMixExpand v).1 = 0 ↔ v = 0x61C8864680B583EB) ∧
  (∀ v : Word, (splitMixExpand v).2 = 0 ↔ v = 0xC3910C8D016B07D6) ∧
  (∀ v : Word, validate Config.standard (expand Config.standard v) = expand Config.standard v)

/-- 40_seeding.md sections 1 and 2 (R401, R410), with the default expander (log entry 1): SEED_U64 completes in every state
and leaves the two SplitMix64 words, with OK and zero data; the value 0 is expanded like any other; the previous state is
not read. The first clause is the formula of `mix`, with its multipliers M1 and M2 and its shifts; the second the two
words of the expansion. -/
def Obligations.SeedU64WritesExpansion : Prop :=
  (∀ z : Word, splitMix z =
    let a := (z ^^^ (z >>> 30)) * 0xBF58476D1CE4E5B9
    let b := (a ^^^ (a >>> 27)) * 0x94D049BB133111EB
    b ^^^ (b >>> 31)) ∧
  (∀ v : Word, Config.standard.seedExpand v =
    (splitMix (v + 0x9E3779B97F4A7C15), splitMix (v + 0x9E3779B97F4A7C15 + 0x9E3779B97F4A7C15))) ∧
  ∀ (v : Word) (s : State),
    exec (.seedU64 v) s = .next { s with
      gen := ⟨splitMix (v + 0x9E3779B97F4A7C15), splitMix (v + 0x9E3779B97F4A7C15 + 0x9E3779B97F4A7C15)⟩
      phase := .responding ⟨.ok, 0, 0⟩ }

/-- R402: the first expanded word becomes S0 and the second S1; the same seed gives the same state and the same output
sequence of any length, whatever the states before. -/
def Obligations.SameSeedSameSequence : Prop :=
  ∀ (cfg : Config) (v : Word),
    (∀ s : State, cfg.seedExpand v ≠ (0, 0) → ∃ t, execWith cfg (.seedU64 v) s = .next t ∧
      t.gen.s0 = (cfg.seedExpand v).1 ∧ t.gen.s1 = (cfg.seedExpand v).2) ∧
    (∀ s s' : State, ∃ t t', execWith cfg (.seedU64 v) s = .next t ∧ execWith cfg (.seedU64 v) s' = .next t' ∧
      t.gen = t'.gen ∧ ∀ n, nextResults n t.gen = nextResults n t'.gen)

/-- 40_seeding.md section 2 (R411), with the default configuration (log entry 1): SEED_DEFAULT completes in every state;
it is SEED_U64 of the default seed, and leaves the state that reset leaves. -/
def Obligations.SeedDefaultLeavesResetState : Prop :=
  ∀ s : State,
    exec .seedDefault s = exec (.seedU64 0xFFFFFFFFFFFFFFFF) s ∧
    exec .seedDefault s = .next { s with gen := State.reset.gen, phase := .responding ⟨.ok, 0, 0⟩ }

/-- 40_seeding.md section 4 (R430): LOAD_STATE completes in every state and copies its operands, with no expansion; only
(0, 0) is replaced, by the default state; loading the current state changes nothing. -/
def Obligations.LoadStateCopiesOperands : Prop :=
  ∀ s : State,
    (∀ a b : Word, ¬ (a = 0 ∧ b = 0) →
      exec (.loadState a b) s = .next { s with gen := ⟨a, b⟩, phase := .responding ⟨.ok, 0, 0⟩ }) ∧
    exec (.loadState 0 0) s = .next { s with gen := State.reset.gen, phase := .responding ⟨.ok, 0, 0⟩ } ∧
    (s.gen ≠ ⟨0, 0⟩ →
      exec (.loadState s.gen.s0 s.gen.s1) s = .next { s with phase := .responding ⟨.ok, 0, 0⟩ })

/-- R421: little-endian packing. The 128-bit value S1:S0 is the sum of `w[i] << (i * W)` over the k words, and the forms
written out for each width. -/
def Obligations.PackIsLittleEndian : Prop :=
  (∀ (w : WordWidth) (ws : List Word), ws.length = w.count → (∀ x ∈ ws, x.toNat < 2 ^ w.bits) →
    (pack w ws).s0.toNat + 2 ^ 64 * (pack w ws).s1.toNat =
      ((List.range w.count).map (fun i => (ws.getD i 0).toNat * 2 ^ (i * w.bits))).sum) ∧
  (∀ a b : Word, pack .w64 [a, b] = ⟨a, b⟩) ∧
  (∀ w0 w1 w2 w3 : Word, (∀ x ∈ [w0, w1, w2, w3], x.toNat < 2 ^ 32) →
    pack .w32 [w0, w1, w2, w3] = ⟨w0 ||| (w1 <<< 32), w2 ||| (w3 <<< 32)⟩) ∧
  (∀ w0 w1 w2 w3 w4 w5 w6 w7 : Word, (∀ x ∈ [w0, w1, w2, w3, w4, w5, w6, w7], x.toNat < 2 ^ 16) →
    pack .w16 [w0, w1, w2, w3, w4, w5, w6, w7] =
      ⟨w0 ||| w1 <<< 16 ||| w2 <<< 32 ||| w3 <<< 48, w4 ||| w5 <<< 16 ||| w6 <<< 32 ||| w7 <<< 48⟩) ∧
  (∀ w0 w1 w2 w3 w4 w5 w6 w7 w8 w9 wa wb wc wd we wf : Word,
    (∀ x ∈ [w0, w1, w2, w3, w4, w5, w6, w7, w8, w9, wa, wb, wc, wd, we, wf], x.toNat < 2 ^ 8) →
    pack .w8 [w0, w1, w2, w3, w4, w5, w6, w7, w8, w9, wa, wb, wc, wd, we, wf] =
      ⟨w0 ||| w1 <<< 8 ||| w2 <<< 16 ||| w3 <<< 24 ||| w4 <<< 32 ||| w5 <<< 40 ||| w6 <<< 48 ||| w7 <<< 56,
       w8 ||| w9 <<< 8 ||| wa <<< 16 ||| wb <<< 24 ||| wc <<< 32 ||| wd <<< 40 ||| we <<< 48 ||| wf <<< 56⟩)

/-- 40_seeding.md section 3 (R420): SEED_WORDS completes when the word source presents all the words still needed: the k
words, each cut to W bits, are packed and validated, the response is OK, exactly those words are taken, and nothing else
changes. It holds for a command that has just been accepted and for one that has waited. -/
def Obligations.SeedWordsCompletesWithAllWords : Prop :=
  ∀ (w : WordWidth) (s : State) (staged ds : List Word) (rest : List WordTransfer),
    (((∃ c, s.phase = .accepted c) ∧ staged = []) ∨ s.phase = .waiting w staged) →
    staged.length + ds.length = w.count →
    s.words = ds.map .word ++ rest →
    exec (.seedWords w) s = .next { s with
      gen := validate Config.standard (pack w (staged ++ ds.map (fun d => BitVec.ofNat 64 (d.toNat % 2 ^ w.bits))))
      phase := .responding ⟨.ok, 0, 0⟩
      words := rest }

/-- 40_seeding.md section 3 (R423) and 60_exceptions.md section 1 (R803): when a transfer carries a failure, SEED_WORDS ends
at once with SRC_ERR and zero data; the words behind it are not taken, the words already taken are gone, and S0 and S1
are as they were. No other command ends so. The model's choices here: the failing transfer itself is taken from the word
source (log entry 12, DEDUCED from V-SW-10), and one step takes the words presented up to it (log entry 11, DESIGN
CHOICE). -/
def Obligations.SeedWordsFailureLeavesState : Prop :=
  (∀ (w : WordWidth) (s : State) (staged ds : List Word) (rest : List WordTransfer),
    (((∃ c, s.phase = .accepted c) ∧ staged = []) ∨ s.phase = .waiting w staged) →
    staged.length + ds.length < w.count →
    s.words = ds.map .word ++ .err :: rest →
    exec (.seedWords w) s = .next { s with phase := .responding ⟨.srcErr, 0, 0⟩, words := rest }) ∧
  (∀ (i : Instr) (s t : State) (d0 d1 : Word), exec i s = .next t → t.phase = .responding ⟨.srcErr, d0, d1⟩ →
    (∃ w, i = .seedWords w) ∧ d0 = 0 ∧ d1 = 0 ∧ t.gen = s.gen)

/-- 70_reset_and_hazards.md section 3 (R913): while words are missing SEED_WORDS takes those there are and holds; with none
it stays exactly as it is; and the hold is lifted by the word source, after which the outcome is the one of getting all
words at once, or by a reset. The model's choices here: one step takes and stages all the words presented (log entry 11,
DESIGN CHOICE), and the hold is a step that changes nothing, where R913 gives it no step of its own (log entry 3, DESIGN
CHOICE). -/
def Obligations.SeedWordsHoldsForWords : Prop :=
  (∀ (w : WordWidth) (s : State) (staged ds : List Word),
    (((∃ c, s.phase = .accepted c) ∧ staged = []) ∨ s.phase = .waiting w staged) →
    staged.length + ds.length < w.count → s.words = ds.map .word →
    exec (.seedWords w) s = .next { s with
      phase := .waiting w (staged ++ ds.map (fun d => BitVec.ofNat 64 (d.toNat % 2 ^ w.bits))), words := [] } ∧
    ∀ more : List WordTransfer,
      exec (.seedWords w) { s with
        phase := .waiting w (staged ++ ds.map (fun d => BitVec.ofNat 64 (d.toNat % 2 ^ w.bits))), words := more } =
      exec (.seedWords w) { s with phase := .waiting w staged, words := ds.map .word ++ more }) ∧
  (∀ (w : WordWidth) (s : State) (staged : List Word), s.gen ≠ GenState.degenerate →
    s.phase = .waiting w staged → staged.length < w.count → s.words = [] →
    (s.rst = false → step s = .next s) ∧ (s.rst = true → ∃ t, step s = .next t ∧ t.phase = .idle))

/-- R422: only WDATA[W-1:0] matters, and the k words are 128 bits. -/
def Obligations.SeedWordHighBitsIgnored : Prop :=
  (∀ w : WordWidth, w.count * w.bits = 128) ∧
  (∀ (w : WordWidth) (s : State) (ds ds' : List Word) (rest : List WordTransfer), ds.length ≤ w.count →
    (∃ c, s.phase = .accepted c) →
    ds.map (fun d => d.toNat % 2 ^ w.bits) = ds'.map (fun d => d.toNat % 2 ^ w.bits) →
    exec (.seedWords w) { s with words := ds.map .word ++ rest } =
      exec (.seedWords w) { s with words := ds'.map .word ++ rest })

/-- 30_encoding.md sections 1, 2 and 4 (R301, R309, R313): a well-formed line, presented to an idle block with nothing else
on the ports, is accepted, run and answered in three steps, and takes exactly the words it lists. The model's choices
here: the life of a command is three steps (log entry 2, DEDUCED), of which one takes all the words presented (log entry
11, DESIGN CHOICE), and a failing transfer is itself taken, so none is left (log entry 12, DEDUCED). With the default
configuration (log entry 1). -/
def Obligations.WellFormedLineCompletes : Prop :=
  ∀ (l : Line) (s : State), l.wellFormed = true → s.gen ≠ GenState.degenerate → s.rst = false → s.phase = .idle →
    s.cmds = [] → s.words = [] → s.rspReady = true →
    ∃ g r, runEvents [.block, .block, .block] (s.presentLine l) =
      .next { s with gen := g, responses := s.responses ++ [r] }

/-! ## Generation -/

/-- R500: the step as the document transcribes it, and that equal states stay equal and give the same result. -/
def Obligations.StepAsTranscribed : Prop :=
  (∀ s0 s1 : Word, genStep ⟨s0, s1⟩ =
    (s0 + s1, ⟨s0.rotateLeft 55 ^^^ (s1 ^^^ s0) ^^^ ((s1 ^^^ s0) <<< 14), (s1 ^^^ s0).rotateLeft 36⟩)) ∧
  (∀ s s' : State, s.gen = s'.gen → ∃ t t' r, exec .next s = .next t ∧ exec .next s' = .next t' ∧
    t.gen = t'.gen ∧ t.phase = .responding r ∧ t'.phase = .responding r)

/-- 41_generation.md section 1 (R501): the bit-level form of Step. -/
def Obligations.StepBitByBit : Prop :=
  ∀ (g : GenState) (i : Nat), i < 64 →
    (genNext g).s0.getLsbD i =
      ((g.s0.getLsbD ((i + 64 - 55) % 64) ^^ (g.s0.getLsbD i ^^ g.s1.getLsbD i)) ^^
        (if 14 ≤ i then g.s0.getLsbD (i - 14) ^^ g.s1.getLsbD (i - 14) else false)) ∧
    (genNext g).s1.getLsbD i =
      (g.s0.getLsbD ((i + 64 - 36) % 64) ^^ g.s1.getLsbD ((i + 64 - 36) % 64))

/-- 41_generation.md section 1 (R503): Step is invertible with the inverse given, linear over GF(2), and maps the
degenerate state, and only it, to the degenerate state. -/
def Obligations.StepInvertibleAndLinear : Prop :=
  (∀ g : GenState, genPrev (genNext g) = g) ∧ (∀ g : GenState, genNext (genPrev g) = g) ∧
  (∀ a b : GenState, genNext (a.xor b) = (genNext a).xor (genNext b)) ∧
  (∀ g : GenState, genNext g = ⟨0, 0⟩ ↔ g = ⟨0, 0⟩)

/-- 41_generation.md section 1 (R504): the block form of the state-transition matrix T. -/
def Obligations.StepMatrixBlocks : Prop :=
  ∀ s0 s1 : Word,
    genNext ⟨s0, s1⟩ =
      ⟨(s0.rotateLeft 55 ^^^ s0 ^^^ s0 <<< 14) ^^^ (s1 ^^^ s1 <<< 14), s0.rotateLeft 36 ^^^ s1.rotateLeft 36⟩

/-- 41_generation.md section 1 (R503): every non-zero state lies on one cycle of length 2^128 - 1. -/
def Obligations.StepHasFullPeriod : Prop :=
  (∀ (g : GenState) (n : Nat), g ≠ ⟨0, 0⟩ → (genNext^[n] g = g ↔ (2 ^ 128 - 1) ∣ n)) ∧
  (∀ g g' : GenState, g ≠ ⟨0, 0⟩ → g' ≠ ⟨0, 0⟩ → ∃ n < 2 ^ 128 - 1, genNext^[n] g = g')

/-- 41_generation.md section 2 (R510, R511): NEXT completes in every state; the result is the sum of the two words before
the step, modulo 2^64, and the state advances by one Step; nothing else changes. -/
def Obligations.NextReturnsSumAndSteps : Prop :=
  ∀ s : State,
    exec .next s = .next { s with
      gen := ⟨s.gen.s0.rotateLeft 55 ^^^ (s.gen.s1 ^^^ s.gen.s0) ^^^ ((s.gen.s1 ^^^ s.gen.s0) <<< 14),
        (s.gen.s1 ^^^ s.gen.s0).rotateLeft 36⟩
      phase := .responding ⟨.ok, BitVec.ofNat 64 ((s.gen.s0.toNat + s.gen.s1.toNat) % 2 ^ 64), 0⟩ } ∧
    resultMin ≤ (genResult s.gen).toNat ∧ (genResult s.gen).toNat ≤ resultMax

/-- R521: DISCARD n completes in every state and leaves the state that n NEXT commands leave; it returns no result and
changes nothing else. -/
def Obligations.DiscardEqualsRepeatedNext : Prop :=
  ∀ (n : Word) (s : State),
    exec (.discard n) s = .next { s with
      gen := ((fun u => match exec .next u with | .next t => t | _ => u)^[n.toNat] s).gen
      phase := .responding ⟨.ok, 0, 0⟩ }

/-! ## Jump -/

/-- 42_jump.md section 1 (R601), for any jump constants: the accumulators hold the XOR of the states i steps on, over the
bits i that are set, JUMP0 giving bits 0 to 63 and JUMP1 bits 64 to 127. -/
def Obligations.JumpSumsSelectedStates : Prop :=
  ∀ (cfg : Config) (g : GenState),
    jump cfg g = (((List.range 128).filter (fun i =>
      if i < 64 then cfg.jump0.getLsbD i else cfg.jump1.getLsbD (i - 64))).map (fun i => genNext^[i] g)).foldr
        GenState.xor ⟨0, 0⟩

/-- 42_jump.md section 1 (R603), for any jump constants: Jump is linear over GF(2). -/
def Obligations.JumpIsLinear : Prop :=
  ∀ cfg : Config, (∀ a b : GenState, jump cfg (a.xor b) = (jump cfg a).xor (jump cfg b)) ∧
    jump cfg ⟨0, 0⟩ = ⟨0, 0⟩

/-- 42_jump.md sections 1 and 2 (R602, R610), with the default constants (log entry 1): JUMP completes in every state,
advances it by exactly 2^64 steps, responds OK with zero data, and changes nothing else. -/
def Obligations.JumpIsTwoPow64Steps : Prop :=
  ∀ s : State,
    exec .jump s = .next { s with gen := genNext^[2 ^ 64] s.gen, phase := .responding ⟨.ok, 0, 0⟩ }

/-- 42_jump.md sections 1 and 2 (R601, R610): JUMP completes in every state, with the state the accumulator loop gives,
and is JUMPN 1. -/
def Obligations.JumpAppliesJumpOnce : Prop :=
  ∀ s : State,
    exec .jump s = .next { s with gen := jump Config.standard s.gen, phase := .responding ⟨.ok, 0, 0⟩ } ∧
    exec (.jumpn 1) s = exec .jump s

/-- 42_jump.md section 1 (R604), with the default constants (log entry 1): Jump is invertible, so it maps non-zero states
to non-zero states. -/
def Obligations.JumpIsInvertible : Prop :=
  Function.Bijective (jump Config.standard) ∧
  (∀ g : GenState, jump Config.standard g = ⟨0, 0⟩ ↔ g = ⟨0, 0⟩)

/-- 42_jump.md section 1 (R605, R606), with the default constants (log entry 1): the 128 row masks of the table give the
same map as the accumulator loop. -/
def Obligations.JumpMatrixAgrees : Prop :=
  ∀ g : GenState, jumpByMatrix g = jump Config.standard g

/-- 42_jump.md section 1 (R607), with the default constants (log entry 1): k successive jumps from a non-zero state give
k + 1 streams of 2^64 states each, no two of which meet, for k + 1 up to 2^64 - 1. -/
def Obligations.JumpStreamsDisjoint : Prop :=
  ∀ (g : GenState) (k a b i j : Nat), g ≠ ⟨0, 0⟩ → k + 1 ≤ 2 ^ 64 - 1 → a < b → b ≤ k → i < 2 ^ 64 → j < 2 ^ 64 →
    genNext^[i] ((jump Config.standard)^[a] g) ≠ genNext^[j] ((jump Config.standard)^[b] g)

/-- 42_jump.md section 2 (R611), with the default constants (log entry 1): from any non-zero state, JUMP and then NEXT
does not leave what DISCARD 1 leaves. -/
def Obligations.JumpThenNextDiffersFromDiscardOne : Prop :=
  ∀ s : State, s.gen ≠ GenState.degenerate →
    ∃ t u v, exec .jump s = .next t ∧ exec .next t = .next u ∧ exec (.discard 1) s = .next v ∧ u.gen ≠ v.gen

/-- 42_jump.md section 3 (R620): JUMPN n completes in every state and applies the jump exactly n times; it responds OK
with zero data and changes nothing else. -/
def Obligations.JumpnRepeatsJump : Prop :=
  ∀ (n : Word) (s : State),
    exec (.jumpn n) s = .next { s with
      gen := ((fun u => match exec .jump u with | .next t => t | _ => u)^[n.toNat] s).gen
      phase := .responding ⟨.ok, 0, 0⟩ }

/-- 42_jump.md section 3 (R621), with the default constants (log entry 1): JUMPN n leaves the state n * 2^64 steps on. -/
def Obligations.JumpnIsManySteps : Prop :=
  ∀ (n : Word) (s : State), ∃ t, exec (.jumpn n) s = .next t ∧ t.gen = genNext^[n.toNat * 2 ^ 64] s.gen

/-! ## State access -/

/-- 43_state_access.md section 1 (R701): READ_STATE completes in every state, responds S0 and S1 of that state, and
changes nothing; so a second one gives the same pair. -/
def Obligations.ReadStateReturnsState : Prop :=
  ∀ s : State,
    exec .readState s = .next { s with phase := .responding ⟨.ok, s.gen.s0, s.gen.s1⟩ } ∧
    exec .readState { s with phase := .responding ⟨.ok, s.gen.s0, s.gen.s1⟩ } = exec .readState s

/-- 43_state_access.md section 2 (R713): what READ_STATE returns from one instance, loaded into another with LOAD_STATE,
gives it the same state and the same later results. -/
def Obligations.ReadThenLoadClonesState : Prop :=
  ∀ s u : State, s.gen ≠ GenState.degenerate →
    ∃ s' r u', exec .readState s = .next s' ∧ s'.phase = .responding r ∧ s'.gen = s.gen ∧
      exec (.loadState r.data0 r.data1) u = .next u' ∧ u'.gen = s.gen ∧
      ∀ n, nextResults n u'.gen = nextResults n s.gen

/-- R714: two instances are equal exactly when READ_STATE returns equal words from both; instances with equal S0 and S1
stay equal under the same commands (and, for SEED_WORDS, the same words) and give the same responses, however each was
reached; the responses of the past never matter. -/
def Obligations.EqualStatesStayEqual : Prop :=
  (∀ s s' t t' : State, exec .readState s = .next t → exec .readState s' = .next t' →
    (t.phase = t'.phase ↔ s.gen = s'.gen)) ∧
  (∀ (i : Instr) (s s' t : State), s.gen = s'.gen → s.words = s'.words → (∀ w, s.stagedFor w = s'.stagedFor w) →
    exec i s = .next t → ∃ t', exec i s' = .next t' ∧ t'.gen = t.gen ∧ t'.phase = t.phase ∧ t'.words = t.words) ∧
  (∀ (es : List Event) (s t : State) (h : List Response), runEvents es s = .next t →
    runEvents es { s with responses := h ++ s.responses } = .next { t with responses := h ++ t.responses })

/-! ## Reset -/

/-- 70_reset_and_hazards.md section 1 (R901, R902), with the default configuration (log entry 1): the reset values, and
what the ports show. The fields of the host's side are the model's choice (log entry 6). -/
def Obligations.ResetStateValues : Prop :=
  State.reset.gen.s0 = 0xE4D971771B652C20 ∧ State.reset.gen.s1 = 0xE99FF867DBF682C9 ∧
  State.reset.gen = validate Config.standard
    ⟨(Config.standard.seedExpand Config.standard.defaultSeed).1, (Config.standard.seedExpand Config.standard.defaultSeed).2⟩ ∧
  State.reset.phase = .idle ∧
  State.reset.cmdReady = true ∧ State.reset.wReady = false ∧ State.reset.rspValid = false

/-- 70_reset_and_hazards.md section 1 (R903, R904), with the default configuration (log entry 1): while a reset is requested
CMD_READY, W_READY and RSP_VALID are 0, no command is accepted and no word taken; the step that takes it abandons a
command in flight, with no response, and leaves the reset state, not a state part way through the command; the words not
yet taken stay where they are. The model's choices here, all DEDUCED: the step that takes the reset releases the request
(log entry 4), the host's side of the ports stays as it is (log entry 5), and a pending response is dropped (log entry
17). -/
def Obligations.ResetAbandonsCommand : Prop :=
  ∀ s : State, s.rst = true →
    s.cmdReady = false ∧ s.wReady = false ∧ s.rspValid = false ∧
    step s = .next { s with gen := State.reset.gen, phase := .idle, rst := false }

/-- 00_scope.md section 4 (R10) and 70_reset_and_hazards.md section 2 (R906): the machine is the parametric machine at the
default configuration, which meets the premise (by the default SEED_EXPAND, log entry 1, PRESUMED). 10_state.md section 1
(R102), 40_seeding.md section 1 (R400, R404) and 41_generation.md section 1 (R503): for any configuration that meets the
premise, a reset leaves a state that is not (0, 0), and every command but JUMP and JUMPN, the seeding commands among them,
keeps a state that is not (0, 0) so. JUMP and JUMPN may not, for other jump constants than the defaults. -/
def Obligations.ConfigurationPremise : Prop :=
  Config.standard.wellFormed = true ∧ (∀ s : State, step s = stepWith Config.standard s) ∧
  (∀ (cfg : Config) (s t : State), cfg.wellFormed = true → s.rst = true → stepWith cfg s = .next t →
    t.gen ≠ ⟨0, 0⟩) ∧
  (∀ (cfg : Config) (i : Instr) (s t : State), cfg.wellFormed = true → s.gen ≠ ⟨0, 0⟩ → i ≠ .jump →
    (∀ n, i ≠ .jumpn n) → execWith cfg i s = .next t → t.gen ≠ ⟨0, 0⟩)

/-- 60_exceptions.md section 3 (R816): an idle block with no command presented holds S0 and S1. The model's choice here: the
hold is a step that leaves the whole state as it is (log entry 3, DESIGN CHOICE). -/
def Obligations.IdleBlockHolds : Prop :=
  ∀ s : State, s.rst = false → s.gen ≠ GenState.degenerate → s.phase = .idle → s.cmds = [] → step s = .next s

/-! ## The invariant -/

/-- 10_state.md section 1 (R103) and 60_exceptions.md section 2 (R805, by which a reset comes before everything): the
degenerate state is a fixed point of Step with result 0, and the machine faults exactly when a step starts in it with no
reset requested; it stops in no other state. The model's choice here: the fault comes at the start of a step, in every
phase (log entry 9, DEDUCED). With the default configuration (log entry 1). -/
def Obligations.DegenerateStateFaults : Prop :=
  genStep ⟨0, 0⟩ = (0, ⟨0, 0⟩) ∧
  (∀ s : State, step s = .fault .degenerateState ↔ s.rst = false ∧ s.gen = ⟨0, 0⟩) ∧
  (∀ (s : State), ¬ (s.rst = false ∧ s.gen = ⟨0, 0⟩) → ∃ t, step s = .next t)

/-- 10_state.md section 1: the machine right after reset meets the invariant. -/
def Obligations.ResetMeetsInvariant : Prop := Inv State.reset

/-- 10_state.md section 1 (R102), with the default configuration (log entry 1): from every state that meets the
invariant, a step gives one that meets it: (S0, S1) is not (0, 0), a waiting SEED_WORDS has fewer than k words of W bits,
and an error response carries zero data. -/
def Obligations.StepKeepsInvariant : Prop :=
  ∀ s t : State, Inv s → step s = .next t → Inv t

/-- 10_state.md section 1 (R102), with the default configuration (log entry 1): whatever the host does, in any order and
any number of steps from reset, the machine never stops, and every state it passes through meets the invariant, so is not (0, 0)
(`SafeOut`; every state on the way is the end of a shorter list of events). -/
def Obligations.EveryScheduleFromResetIsSafe : Prop :=
  ∀ es : List Event, SafeOut (runEvents es State.reset)
end

