-- ==== Sys2Proof/Laws/State.lean ====
section
/-! SUPPORT. What each update of State leaves in each field, so that no proof unfolds a record update. -/

namespace Sys2Proof.Machine

@[simp] theorem State.respond_gen (s : State) (r : Response) : (s.respond r).gen = s.gen := rfl
@[simp] theorem State.respond_phase (s : State) (r : Response) : (s.respond r).phase = .responding r := rfl
@[simp] theorem State.respond_rst (s : State) (r : Response) : (s.respond r).rst = s.rst := rfl
@[simp] theorem State.respond_cmds (s : State) (r : Response) : (s.respond r).cmds = s.cmds := rfl
@[simp] theorem State.respond_words (s : State) (r : Response) : (s.respond r).words = s.words := rfl
@[simp] theorem State.respond_rspReady (s : State) (r : Response) : (s.respond r).rspReady = s.rspReady := rfl
@[simp] theorem State.respond_responses (s : State) (r : Response) : (s.respond r).responses = s.responses := rfl

@[simp] theorem State.complete_gen (s : State) (g : GenState) (r : Response) : (s.complete g r).gen = g := rfl
@[simp] theorem State.complete_phase (s : State) (g : GenState) (r : Response) : (s.complete g r).phase = .responding r := rfl
@[simp] theorem State.complete_rst (s : State) (g : GenState) (r : Response) : (s.complete g r).rst = s.rst := rfl
@[simp] theorem State.complete_cmds (s : State) (g : GenState) (r : Response) : (s.complete g r).cmds = s.cmds := rfl
@[simp] theorem State.complete_words (s : State) (g : GenState) (r : Response) : (s.complete g r).words = s.words := rfl
@[simp] theorem State.complete_rspReady (s : State) (g : GenState) (r : Response) : (s.complete g r).rspReady = s.rspReady := rfl
@[simp] theorem State.complete_responses (s : State) (g : GenState) (r : Response) : (s.complete g r).responses = s.responses := rfl

@[simp] theorem State.raise_gen (s : State) (e : Status) : (s.raise e).gen = s.gen := rfl
@[simp] theorem State.raise_phase (s : State) (e : Status) : (s.raise e).phase = .responding (errorResponse e) := rfl
@[simp] theorem State.raise_rst (s : State) (e : Status) : (s.raise e).rst = s.rst := rfl
@[simp] theorem State.raise_cmds (s : State) (e : Status) : (s.raise e).cmds = s.cmds := rfl
@[simp] theorem State.raise_words (s : State) (e : Status) : (s.raise e).words = s.words := rfl
@[simp] theorem State.raise_rspReady (s : State) (e : Status) : (s.raise e).rspReady = s.rspReady := rfl
@[simp] theorem State.raise_responses (s : State) (e : Status) : (s.raise e).responses = s.responses := rfl

@[simp] theorem State.seedWith_gen (cfg : Config) (s : State) (g : GenState) : (s.seedWith cfg g).gen = validate cfg g := rfl
@[simp] theorem State.seedWith_phase (cfg : Config) (s : State) (g : GenState) : (s.seedWith cfg g).phase = .responding okResponse := rfl
@[simp] theorem State.seedWith_rst (cfg : Config) (s : State) (g : GenState) : (s.seedWith cfg g).rst = s.rst := rfl
@[simp] theorem State.seedWith_cmds (cfg : Config) (s : State) (g : GenState) : (s.seedWith cfg g).cmds = s.cmds := rfl
@[simp] theorem State.seedWith_words (cfg : Config) (s : State) (g : GenState) : (s.seedWith cfg g).words = s.words := rfl
@[simp] theorem State.seedWith_rspReady (cfg : Config) (s : State) (g : GenState) : (s.seedWith cfg g).rspReady = s.rspReady := rfl
@[simp] theorem State.seedWith_responses (cfg : Config) (s : State) (g : GenState) : (s.seedWith cfg g).responses = s.responses := rfl

@[simp] theorem State.takeReset_gen (cfg : Config) (s : State) : (s.takeReset cfg).gen = defaultState cfg := rfl
@[simp] theorem State.takeReset_phase (cfg : Config) (s : State) : (s.takeReset cfg).phase = .idle := rfl
@[simp] theorem State.takeReset_rst (cfg : Config) (s : State) : (s.takeReset cfg).rst = false := rfl
@[simp] theorem State.takeReset_cmds (cfg : Config) (s : State) : (s.takeReset cfg).cmds = s.cmds := rfl
@[simp] theorem State.takeReset_words (cfg : Config) (s : State) : (s.takeReset cfg).words = s.words := rfl
@[simp] theorem State.takeReset_rspReady (cfg : Config) (s : State) : (s.takeReset cfg).rspReady = s.rspReady := rfl
@[simp] theorem State.takeReset_responses (cfg : Config) (s : State) : (s.takeReset cfg).responses = s.responses := rfl

theorem State.accept_nil {s : State} (h : s.cmds = []) : s.accept = s := by simp [State.accept, h]

theorem State.accept_cons {s : State} {c : Command} {cs : List Command} (h : s.cmds = c :: cs) :
    s.accept = { s with phase := .accepted c, cmds := cs } := by simp [State.accept, h]

@[simp] theorem State.accept_gen (s : State) : s.accept.gen = s.gen := by unfold State.accept; split <;> rfl
@[simp] theorem State.accept_rst (s : State) : s.accept.rst = s.rst := by unfold State.accept; split <;> rfl
@[simp] theorem State.accept_words (s : State) : s.accept.words = s.words := by unfold State.accept; split <;> rfl
@[simp] theorem State.accept_rspReady (s : State) : s.accept.rspReady = s.rspReady := by unfold State.accept; split <;> rfl
@[simp] theorem State.accept_responses (s : State) : s.accept.responses = s.responses := by unfold State.accept; split <;> rfl

theorem State.deliver_held {s : State} {r : Response} (h : s.rspReady = false) : s.deliver r = s := by
  simp [State.deliver, h]

theorem State.deliver_taken {s : State} {r : Response} (h : s.rspReady = true) :
    s.deliver r = { s with phase := .idle, responses := s.responses ++ [r] } := by simp [State.deliver, h]

@[simp] theorem State.deliver_gen (s : State) (r : Response) : (s.deliver r).gen = s.gen := by unfold State.deliver; split <;> rfl
@[simp] theorem State.deliver_rst (s : State) (r : Response) : (s.deliver r).rst = s.rst := by unfold State.deliver; split <;> rfl
@[simp] theorem State.deliver_cmds (s : State) (r : Response) : (s.deliver r).cmds = s.cmds := by unfold State.deliver; split <;> rfl
@[simp] theorem State.deliver_words (s : State) (r : Response) : (s.deliver r).words = s.words := by unfold State.deliver; split <;> rfl
@[simp] theorem State.deliver_rspReady (s : State) (r : Response) : (s.deliver r).rspReady = s.rspReady := by unfold State.deliver; split <;> rfl

@[simp] theorem State.withAccepted_gen (s : State) (c : Command) : (s.withAccepted c).gen = s.gen := rfl
@[simp] theorem State.withAccepted_phase (s : State) (c : Command) : (s.withAccepted c).phase = .accepted c := rfl
@[simp] theorem State.withAccepted_rst (s : State) (c : Command) : (s.withAccepted c).rst = false := rfl
@[simp] theorem State.withAccepted_cmds (s : State) (c : Command) : (s.withAccepted c).cmds = s.cmds := rfl
@[simp] theorem State.withAccepted_rspReady (s : State) (c : Command) : (s.withAccepted c).rspReady = s.rspReady := rfl
@[simp] theorem State.withAccepted_responses (s : State) (c : Command) : (s.withAccepted c).responses = s.responses := rfl

@[simp] theorem EnvAction.apply_gen (a : EnvAction) (s : State) : (a.apply s).gen = s.gen := by cases a <;> rfl
@[simp] theorem EnvAction.apply_phase (a : EnvAction) (s : State) : (a.apply s).phase = s.phase := by cases a <;> rfl
@[simp] theorem EnvAction.apply_responses (a : EnvAction) (s : State) : (a.apply s).responses = s.responses := by cases a <;> rfl

@[simp] theorem State.stagedFor_waiting {s : State} {w : WordWidth} {staged : List Word}
    (h : s.phase = .waiting w staged) : s.stagedFor w = staged := by simp [State.stagedFor, h]

theorem State.stagedFor_accepted {s : State} {c : Command} (h : s.phase = .accepted c) (w : WordWidth) :
    s.stagedFor w = [] := by simp [State.stagedFor, h]

end Sys2Proof.Machine
end

