-- ==== Sys2Proof/Laws/Ops.lean ====
section
/-! SUPPORT. One lemma for each shared operation, saying once what it can do. -/

namespace Sys2Proof

theorem WordWidth.count_mul_bits (w : WordWidth) : w.count * w.bits = 128 := by cases w <;> decide

theorem WordWidth.count_pos (w : WordWidth) : 0 < w.count := by cases w <;> decide

theorem WordWidth.bits_le (w : WordWidth) : w.bits ≤ 64 := by cases w <;> decide

@[simp] theorem widthOfWsel_wsel (w : WordWidth) : widthOfWsel w.wsel = w := by cases w <;> decide

@[simp] theorem wsel_widthOfWsel (x : BitVec 2) : (widthOfWsel x).wsel = x := by
  revert x; decide

namespace Machine

theorem seedWord_toNat (w : WordWidth) (d : Word) : (seedWord w d).toNat = d.toNat % 2 ^ w.bits := by
  have h : 2 ^ w.bits ≤ 2 ^ 64 := Nat.pow_le_pow_right (by omega) w.bits_le
  have h' : d.toNat % 2 ^ w.bits < 2 ^ w.bits := Nat.mod_lt _ (Nat.two_pow_pos _)
  simp only [seedWord, BitVec.toNat_ofNat]
  exact Nat.mod_eq_of_lt (by omega)

theorem seedWord_lt (w : WordWidth) (d : Word) : (seedWord w d).toNat < 2 ^ w.bits := by
  rw [seedWord_toNat]; exact Nat.mod_lt _ (Nat.two_pow_pos _)

/-- Enough words without a failure among them: all that are needed are taken, the rest stays. -/
theorem takeWords_all (w : WordWidth) (ds : List Word) (rest : List WordTransfer) :
    takeWords w ds.length (ds.map .word ++ rest) = .all (ds.map (seedWord w)) rest := by
  induction ds with
  | nil => rfl
  | cons d ds ih => simp [takeWords, ih]

/-- A failure while words are still needed: it is taken, what is behind it is not. -/
theorem takeWords_failed (w : WordWidth) (ds : List Word) (rest : List WordTransfer) (need : Nat)
    (h : ds.length < need) : takeWords w need (ds.map .word ++ .err :: rest) = .failed rest := by
  induction ds generalizing need with
  | nil => cases need with
    | zero => simp at h
    | succ n => rfl
  | cons d ds ih => cases need with
    | zero => simp at h
    | succ n => simp [takeWords, ih n (by simpa using h)]

/-- Too few words: all of them are taken. -/
theorem takeWords_short (w : WordWidth) (ds : List Word) (need : Nat) (h : ds.length < need) :
    takeWords w need (ds.map .word) = .short (ds.map (seedWord w)) := by
  induction ds generalizing need with
  | nil => cases need with
    | zero => simp at h
    | succ n => rfl
  | cons d ds ih => cases need with
    | zero => simp at h
    | succ n => simp [takeWords, ih n (by simpa using h)]

/-- Every run of `takeWords` is one of the three above. -/
theorem takeWords_cases (w : WordWidth) (need : Nat) (xs : List WordTransfer) :
    (∃ (ds : List Word) (rest : List WordTransfer), ds.length = need ∧ xs = ds.map .word ++ rest ∧
        takeWords w need xs = .all (ds.map (seedWord w)) rest) ∨
    (∃ (ds : List Word) (rest : List WordTransfer), ds.length < need ∧ xs = ds.map .word ++ .err :: rest ∧ takeWords w need xs = .failed rest) ∨
    (∃ ds : List Word, ds.length < need ∧ xs = ds.map .word ∧ takeWords w need xs = .short (ds.map (seedWord w))) := by
  induction need generalizing xs with
  | zero => exact .inl ⟨[], xs, rfl, rfl, by cases xs <;> rfl⟩
  | succ n ih =>
    match xs with
    | [] => exact .inr (.inr ⟨[], by simp, rfl, rfl⟩)
    | .err :: rest => exact .inr (.inl ⟨[], rest, by simp, rfl, rfl⟩)
    | .word d :: xs =>
      obtain ⟨ds, rest, hl, hx, ht⟩ | ⟨ds, rest, hl, hx, ht⟩ | ⟨ds, hl, hx, ht⟩ := ih xs
      · exact .inl ⟨d :: ds, rest, by simp [hl], by simp [hx], by simp [takeWords, ht]⟩
      · exact .inr (.inl ⟨d :: ds, rest, by simpa using hl, by simp [hx], by simp [takeWords, ht]⟩)
      · exact .inr (.inr ⟨d :: ds, by simpa using hl, by simp [hx], by simp [takeWords, ht]⟩)

/-- A sound command in flight has staged at most the k words of its width. -/
theorem State.stagedFor_length_le {s : State} (h : s.phase.sound = true) (w : WordWidth) :
    (s.stagedFor w).length ≤ w.count := by
  unfold State.stagedFor
  split
  · rename_i w' staged hp
    simp only [hp, Phase.sound, Bool.and_eq_true, decide_eq_true_eq] at h
    split
    · rename_i hw; subst hw; omega
    · simp
  · simp

/-- The validator keeps every state but the degenerate one. -/
theorem validate_of_ne {cfg : Config} {g : GenState} (h : g ≠ GenState.degenerate) : validate cfg g = g := by
  simp [validate, h]

theorem validate_degenerate (cfg : Config) :
    validate cfg GenState.degenerate = expand cfg cfg.defaultSeed := by simp [validate]

theorem expand_default_ne {cfg : Config} (h : cfg.wellFormed = true) :
    expand cfg cfg.defaultSeed ≠ GenState.degenerate := by
  intro hd
  simp only [expand, GenState.degenerate, GenState.mk.injEq] at hd
  simp [Config.wellFormed, hd.1, hd.2] at h

/-- For a well-formed configuration no validated state is degenerate. -/
theorem validate_ne {cfg : Config} (h : cfg.wellFormed = true) (g : GenState) :
    validate cfg g ≠ GenState.degenerate := by
  unfold validate
  split
  · exact expand_default_ne h
  · assumption

theorem standard_wellFormed : Config.standard.wellFormed = true := by decide

/-- What taking a command from the port can do. -/
theorem State.accept_cases (s : State) :
    (s.cmds = [] ∧ s.accept = s) ∨
    ∃ c cs, s.cmds = c :: cs ∧ s.accept = { s with phase := .accepted c, cmds := cs } := by
  cases h : s.cmds with
  | nil => exact .inl ⟨rfl, State.accept_nil h⟩
  | cons c cs => exact .inr ⟨c, cs, rfl, State.accept_cons h⟩

/-- What handing over a response can do. -/
theorem State.deliver_cases (s : State) (r : Response) :
    (s.rspReady = false ∧ s.deliver r = s) ∨
    (s.rspReady = true ∧ s.deliver r = { s with phase := .idle, responses := s.responses ++ [r] }) := by
  by_cases h : s.rspReady = true
  · exact .inr ⟨h, State.deliver_taken h⟩
  · have h' : s.rspReady = false := by simpa using h
    exact .inl ⟨h', State.deliver_held h'⟩

end Machine

end Sys2Proof
end

