-- ==== Sys2Proof/Laws/Exec.lean ====
section
/-! SUPPORT. What a command can do to the machine, and what one step can do: the two inversion lemmas from which the
statements about every command and every step follow. -/

namespace Sys2Proof.Machine

/-- `exec` is `execWith` at the default configuration. -/
theorem exec_eq_execWith (i : Instr) (s : State) : exec i s = execWith Config.standard i s := by
  cases i <;> rfl

/-- What SEED_WORDS can do. -/
theorem runSeedWords_cases (cfg : Config) (w : WordWidth) (s : State) :
    (∃ (ds : List Word) (rest : List WordTransfer), ds.length = w.count - (s.stagedFor w).length ∧ s.words = ds.map .word ++ rest ∧
      runSeedWords cfg w s = .next { s with
        gen := validate cfg (pack w (s.stagedFor w ++ ds.map (seedWord w)))
        phase := .responding okResponse
        words := rest }) ∨
    (∃ (ds : List Word) (rest : List WordTransfer), ds.length < w.count - (s.stagedFor w).length ∧ s.words = ds.map .word ++ .err :: rest ∧
      runSeedWords cfg w s = .next { s with phase := .responding (errorResponse .srcErr), words := rest }) ∨
    (∃ ds : List Word, ds.length < w.count - (s.stagedFor w).length ∧ s.words = ds.map .word ∧
      runSeedWords cfg w s = .next { s with
        phase := .waiting w (s.stagedFor w ++ ds.map (seedWord w))
        words := [] }) := by
  obtain ⟨ds, rest, hl, hx, ht⟩ | ⟨ds, rest, hl, hx, ht⟩ | ⟨ds, hl, hx, ht⟩ :=
    takeWords_cases w (w.count - (s.stagedFor w).length) s.words
  · exact .inl ⟨ds, rest, hl, hx, by simp only [runSeedWords, ht]; rfl⟩
  · exact .inr (.inl ⟨ds, rest, hl, hx, by simp only [runSeedWords, ht]; rfl⟩)
  · exact .inr (.inr ⟨ds, hl, hx, by simp only [runSeedWords, ht]⟩)

/-- What a command can do: it completes with status OK, or it is a SEED_WORDS that ends with SRC_ERR or waits. In every
case it goes on, and the reset line, the command port, RSP_READY and the responses taken are as they were. -/
theorem execWith_cases (cfg : Config) (i : Instr) (s : State) :
    (∃ g d0 d1 xs, execWith cfg i s =
      .next { s with gen := g, phase := .responding ⟨.ok, d0, d1⟩, words := xs } ∧
      ((∀ w, i ≠ .seedWords w) → xs = s.words)) ∨
    (∃ w xs, i = .seedWords w ∧
      execWith cfg i s = .next { s with phase := .responding (errorResponse .srcErr), words := xs }) ∨
    (∃ (w : WordWidth) (ds : List Word), i = .seedWords w ∧ ds.length < w.count - (s.stagedFor w).length ∧ s.words = ds.map .word ∧
      execWith cfg i s = .next { s with
        phase := .waiting w (s.stagedFor w ++ ds.map (seedWord w))
        words := [] }) := by
  cases i with
  | seedWords w =>
    obtain ⟨ds, rest, hl, hx, ht⟩ | ⟨ds, rest, hl, hx, ht⟩ | ⟨ds, hl, hx, ht⟩ := runSeedWords_cases cfg w s
    · exact .inl ⟨_, 0, 0, rest, ht, fun h => absurd rfl (h w)⟩
    · exact .inr (.inl ⟨w, rest, rfl, ht⟩)
    · exact .inr (.inr ⟨w, ds, rfl, hl, hx, ht⟩)
  | seedU64 v => exact .inl ⟨_, 0, 0, s.words, rfl, fun _ => rfl⟩
  | seedDefault => exact .inl ⟨_, 0, 0, s.words, rfl, fun _ => rfl⟩
  | loadState a b => exact .inl ⟨_, 0, 0, s.words, rfl, fun _ => rfl⟩
  | next => exact .inl ⟨_, _, 0, s.words, rfl, fun _ => rfl⟩
  | discard n => exact .inl ⟨_, 0, 0, s.words, rfl, fun _ => rfl⟩
  | jump => exact .inl ⟨_, 0, 0, s.words, rfl, fun _ => rfl⟩
  | jumpn n => exact .inl ⟨_, 0, 0, s.words, rfl, fun _ => rfl⟩
  | readState => exact .inl ⟨s.gen, _, _, s.words, rfl, fun _ => rfl⟩

/-- What one step of the default machine can do, by what it meets first. -/
theorem step_cases (s : State) :
    (s.rst = true ∧ step s = .next (s.takeReset Config.standard)) ∨
    (s.rst = false ∧ s.gen = GenState.degenerate ∧ step s = .fault .degenerateState) ∨
    (s.rst = false ∧ s.gen ≠ GenState.degenerate ∧
      ((s.phase = .idle ∧ step s = .next s.accept) ∨
       (∃ c e, s.phase = .accepted c ∧ decode c = .error e ∧ step s = .next (s.raise .illegal)) ∨
       (∃ c i, s.phase = .accepted c ∧ decode c = .ok i ∧ step s = exec i s) ∨
       (∃ w staged, s.phase = .waiting w staged ∧ step s = exec (.seedWords w) s) ∨
       (∃ r, s.phase = .responding r ∧ step s = .next (s.deliver r)))) := by
  cases hr : s.rst with
  | true => exact .inl ⟨rfl, by simp [step, lifecycle, hr]⟩
  | false =>
    by_cases hg : s.gen = GenState.degenerate
    · exact .inr (.inl ⟨rfl, hg, by simp [step, lifecycle, hr, hg]⟩)
    · refine .inr (.inr ⟨rfl, hg, ?_⟩)
      cases hp : s.phase with
      | idle => exact .inl ⟨rfl, by simp [step, lifecycle, hr, hg, hp]⟩
      | accepted c =>
        cases hd : decode c with
        | error e => exact .inr (.inl ⟨c, e, rfl, hd, by simp [step, lifecycle, hr, hg, hp, runAccepted, hd]⟩)
        | ok i => exact .inr (.inr (.inl ⟨c, i, rfl, hd, by simp [step, lifecycle, hr, hg, hp, runAccepted, hd]⟩))
      | waiting w staged =>
        exact .inr (.inr (.inr (.inl ⟨w, staged, rfl, by simp [step, lifecycle, hr, hg, hp]⟩)))
      | responding r => exact .inr (.inr (.inr (.inr ⟨r, rfl, by simp [step, lifecycle, hr, hg, hp]⟩)))

end Sys2Proof.Machine
end

