-- ==== Sys2Proof/Laws/Generator.lean ====
section
/-! SUPPORT. Small lemmas about the state transition and the jump loop. -/

namespace Sys2Proof

namespace GenState

@[simp] theorem xor_s0 (a b : GenState) : (a.xor b).s0 = a.s0 ^^^ b.s0 := rfl
@[simp] theorem xor_s1 (a b : GenState) : (a.xor b).s1 = a.s1 ^^^ b.s1 := rfl
@[simp] theorem degenerate_s0 : degenerate.s0 = 0 := rfl
@[simp] theorem degenerate_s1 : degenerate.s1 = 0 := rfl

theorem ext_words {a b : GenState} (h0 : a.s0 = b.s0) (h1 : a.s1 = b.s1) : a = b := by
  cases a; cases b; simp_all

theorem xor_comm (a b : GenState) : a.xor b = b.xor a :=
  ext_words (BitVec.xor_comm _ _) (BitVec.xor_comm _ _)

theorem xor_assoc (a b c : GenState) : (a.xor b).xor c = a.xor (b.xor c) :=
  ext_words (BitVec.xor_assoc _ _ _) (BitVec.xor_assoc _ _ _)

@[simp] theorem xor_self (a : GenState) : a.xor a = degenerate :=
  ext_words BitVec.xor_self BitVec.xor_self

@[simp] theorem xor_degenerate (a : GenState) : a.xor degenerate = a :=
  ext_words BitVec.xor_zero BitVec.xor_zero

@[simp] theorem degenerate_xor (a : GenState) : degenerate.xor a = a :=
  ext_words BitVec.zero_xor BitVec.zero_xor

theorem xor_eq_degenerate_iff (a b : GenState) : a.xor b = degenerate ↔ a = b := by
  constructor
  · intro h
    have := congrArg (fun x => x.xor b) h
    simpa [xor_assoc] using this
  · rintro rfl; simp

end GenState

namespace Machine

/-- The bits of a rotation: bit i of `a` moves to bit (i + k) mod 64 (R15). -/
theorem getLsbD_rotl (a : Word) (k i : Nat) (hk : k < 64) (hk0 : 0 < k) (hi : i < 64) :
    (rotl a k).getLsbD i = a.getLsbD ((i + (64 - k)) % 64) := by
  simp only [rotl, BitVec.getLsbD_or, BitVec.getLsbD_shiftLeft, BitVec.getLsbD_ushiftRight]
  by_cases h : i < k
  · have h1 : (i + (64 - k)) % 64 = 64 - k + i := by omega
    simp [h, h1]
  · have h1 : (i + (64 - k)) % 64 = i - k := by omega
    have h2 : ¬ (64 - k + i < 64) := by omega
    simp [h, h1, hi, BitVec.getLsbD_of_ge a (64 - k + i) (by omega)]

theorem rotl_xor (a b : Word) (k : Nat) : rotl (a ^^^ b) k = rotl a k ^^^ rotl b k := by
  by_cases hk0 : k = 0
  · subst hk0
    apply BitVec.eq_of_getLsbD_eq
    intro i hi
    simp [rotl, BitVec.getLsbD_or, BitVec.getLsbD_xor]
  · by_cases hk : k < 64
    · apply BitVec.eq_of_getLsbD_eq
      intro i hi
      rw [BitVec.getLsbD_xor, getLsbD_rotl _ _ _ hk (by omega) hi, getLsbD_rotl _ _ _ hk (by omega) hi,
        getLsbD_rotl _ _ _ hk (by omega) hi, BitVec.getLsbD_xor]
    · apply BitVec.eq_of_getLsbD_eq
      intro i hi
      have h0 : 64 - k = 0 := by omega
      have h1 : i < k := by omega
      simp [rotl, h0, h1]

theorem genNext_s0 (g : GenState) :
    (genNext g).s0 = rotl g.s0 rotA ^^^ (g.s1 ^^^ g.s0) ^^^ ((g.s1 ^^^ g.s0) <<< shB) := rfl

theorem genNext_s1 (g : GenState) : (genNext g).s1 = rotl (g.s1 ^^^ g.s0) rotC := rfl

theorem genResult_eq (g : GenState) : genResult g = g.s0 + g.s1 := rfl

@[simp] theorem genNext_degenerate : genNext GenState.degenerate = GenState.degenerate := by decide

@[simp] theorem genAdvance_zero (g : GenState) : genAdvance 0 g = g := rfl

theorem genAdvance_succ (n : Nat) (g : GenState) : genAdvance (n + 1) g = genAdvance n (genNext g) := rfl

theorem genAdvance_add (m n : Nat) (g : GenState) : genAdvance (m + n) g = genAdvance m (genAdvance n g) := by
  simp [genAdvance, Function.iterate_add]

@[simp] theorem jumpAdvance_zero (cfg : Config) (g : GenState) : jumpAdvance cfg 0 g = g := rfl

theorem jumpAdvance_succ (cfg : Config) (n : Nat) (g : GenState) :
    jumpAdvance cfg (n + 1) g = jumpAdvance cfg n (jump cfg g) := rfl

@[simp] theorem jumpIter_cur (x : JumpLoop) (b : Bool) : (jumpIter x b).cur = genNext x.cur := rfl

theorem jumpIter_acc (x : JumpLoop) (b : Bool) :
    (jumpIter x b).acc = if b then x.acc.xor x.cur else x.acc := rfl

@[simp] theorem bitsOf_length (c : Word) : (bitsOf c).length = 64 := by simp [bitsOf]

/-- The working state of the loop only steps, whatever the bits are (R601). -/
theorem foldl_jumpIter_cur (bits : List Bool) (x : JumpLoop) :
    (bits.foldl jumpIter x).cur = genAdvance bits.length x.cur := by
  induction bits generalizing x with
  | nil => rfl
  | cons b bs ih => simp [ih, genAdvance_succ]

end Machine

end Sys2Proof
end

