-- ==== Sys2Proof/Laws/Linear.lean ====
section
/-! SUPPORT. Maps of the generator's state that respect exclusive OR are settled by what they do to the 128 states with
one bit set: two that agree on those agree everywhere. -/

namespace Sys2Proof

/-- A map of the state that is linear over GF(2). -/
def Additive (f : GenState → GenState) : Prop := ∀ a b, f (a.xor b) = (f a).xor (f b)

/-- The state with bit i set: bit i of S0, or bit i - 64 of S1 (the input bits of R606). -/
def GenState.unit (i : Nat) : GenState :=
  if i < 64 then ⟨BitVec.twoPow 64 i, 0⟩ else ⟨0, BitVec.twoPow 64 (i - 64)⟩

theorem Additive.degenerate {f : GenState → GenState} (h : Additive f) :
    f GenState.degenerate = GenState.degenerate := by
  have h1 := h GenState.degenerate GenState.degenerate
  simpa using h1

theorem Additive.iterate {f : GenState → GenState} (h : Additive f) (n : Nat) : Additive (f^[n]) := by
  induction n with
  | zero => intro a b; rfl
  | succ n ih => intro a b; rw [Function.iterate_succ_apply, h a b, ih]; rfl

theorem Additive.comp {f g : GenState → GenState} (hf : Additive f) (hg : Additive g) : Additive (f ∘ g) := by
  intro a b; rw [Function.comp_apply, hg a b, hf]; rfl

/-- The low n + 1 bits of a word are the low n bits and bit n. -/
theorem low_bits_succ (w : Word) (n : Nat) (hn : n < 64) :
    BitVec.ofNat 64 (w.toNat % 2 ^ (n + 1)) =
      BitVec.ofNat 64 (w.toNat % 2 ^ n) ^^^ (if w.getLsbD n then BitVec.twoPow 64 n else 0) := by
  apply BitVec.eq_of_getLsbD_eq
  intro i hi
  have hif : (if w.getLsbD n then BitVec.twoPow 64 n else 0 : Word).getLsbD i = (w.getLsbD n && decide (n = i)) := by
    cases w.getLsbD n with
    | true => rw [if_pos rfl, BitVec.getLsbD_twoPow]; simp [show n < 64 by omega]
    | false => simp
  rw [BitVec.getLsbD_xor, hif]
  simp only [BitVec.getLsbD_ofNat, hi, decide_true, Bool.true_and, Nat.testBit_mod_two_pow, BitVec.testBit_toNat]
  rcases Nat.lt_trichotomy i n with h | h | h
  · simp [h, show i < n + 1 by omega, show n ≠ i by omega]
  · subst h; simp
  · simp [show ¬ i < n by omega, show ¬ i < n + 1 by omega, show n ≠ i by omega]

theorem low_bits_all (w : Word) : BitVec.ofNat 64 (w.toNat % 2 ^ 64) = w := by
  rw [Nat.mod_eq_of_lt w.isLt]; simp

/-- Two linear maps that agree on the states with one bit set are equal. -/
theorem Additive.ext {f g : GenState → GenState} (hf : Additive f) (hg : Additive g)
    (h : ∀ i, i < 128 → f (GenState.unit i) = g (GenState.unit i)) (x : GenState) : f x = g x := by
  have h0 : ∀ n, n ≤ 64 → f ⟨BitVec.ofNat 64 (x.s0.toNat % 2 ^ n), 0⟩ = g ⟨BitVec.ofNat 64 (x.s0.toNat % 2 ^ n), 0⟩ := by
    intro n
    induction n with
    | zero => intro _; simpa [Nat.mod_one, GenState.degenerate] using hf.degenerate.trans hg.degenerate.symm
    | succ n ih =>
      intro hn
      have key : (⟨BitVec.ofNat 64 (x.s0.toNat % 2 ^ (n + 1)), 0⟩ : GenState) =
          (⟨BitVec.ofNat 64 (x.s0.toNat % 2 ^ n), 0⟩ : GenState).xor
            (if x.s0.getLsbD n then GenState.unit n else GenState.degenerate) := by
        rw [low_bits_succ _ _ (by omega)]
        cases x.s0.getLsbD n <;> simp [GenState.xor, GenState.unit, GenState.degenerate, show n < 64 by omega]
      rw [key, hf, hg, ih (by omega)]
      cases x.s0.getLsbD n with
      | true => simp [h n (by omega)]
      | false => simp [hf.degenerate, hg.degenerate]
  have h1 : ∀ n, n ≤ 64 → f ⟨0, BitVec.ofNat 64 (x.s1.toNat % 2 ^ n)⟩ = g ⟨0, BitVec.ofNat 64 (x.s1.toNat % 2 ^ n)⟩ := by
    intro n
    induction n with
    | zero => intro _; simpa [Nat.mod_one, GenState.degenerate] using hf.degenerate.trans hg.degenerate.symm
    | succ n ih =>
      intro hn
      have key : (⟨0, BitVec.ofNat 64 (x.s1.toNat % 2 ^ (n + 1))⟩ : GenState) =
          (⟨0, BitVec.ofNat 64 (x.s1.toNat % 2 ^ n)⟩ : GenState).xor
            (if x.s1.getLsbD n then GenState.unit (64 + n) else GenState.degenerate) := by
        rw [low_bits_succ _ _ (by omega)]
        cases x.s1.getLsbD n <;> simp [GenState.xor, GenState.unit, GenState.degenerate]
      rw [key, hf, hg, ih (by omega)]
      cases x.s1.getLsbD n with
      | true => simp [h (64 + n) (by omega)]
      | false => simp [hf.degenerate, hg.degenerate]
  have hx : x = (⟨x.s0, 0⟩ : GenState).xor ⟨0, x.s1⟩ := by simp [GenState.xor]
  have a0 := h0 64 le_rfl
  have a1 := h1 64 le_rfl
  rw [low_bits_all] at a0 a1
  rw [hx, hf, hg, a0, a1]

end Sys2Proof
end

