-- ==== Sys2Proof/Laws/PerInstr.lean ====
section
/-! SUPPORT. Facts about every command as syntax, one lemma for each constructor. -/

namespace Sys2Proof.Laws.LegalEncoding

/-- The encoding of a command passes the checks of R311, and its command word is one of the 12 legal ones. -/
def Statement (i : Instr) : Prop := (encode i).wellFormed = true ∧ (encode i).cmd ∈ legalCommandWords

theorem seedU64 (value : Word) : Statement (.seedU64 value) := by
  constructor <;> simp [encode, commandWord, Command.wellFormed, Command.op, Command.wsel, Command.rsv, legalCommandWords]
theorem seedDefault : Statement .seedDefault := by unfold Statement; decide
theorem seedWords (width : WordWidth) : Statement (.seedWords width) := by
  cases width <;> (unfold Statement; decide)
theorem loadState (s0 s1 : Word) : Statement (.loadState s0 s1) := by
  constructor <;> simp [encode, commandWord, Command.wellFormed, Command.op, Command.wsel, Command.rsv, legalCommandWords]
theorem next : Statement .next := by unfold Statement; decide
theorem discard (n : Word) : Statement (.discard n) := by
  constructor <;> simp [encode, commandWord, Command.wellFormed, Command.op, Command.wsel, Command.rsv, legalCommandWords]
theorem jump : Statement .jump := by unfold Statement; decide
theorem jumpn (n : Word) : Statement (.jumpn n) := by
  constructor <;> simp [encode, commandWord, Command.wellFormed, Command.op, Command.wsel, Command.rsv, legalCommandWords]
theorem readState : Statement .readState := by unfold Statement; decide

end Sys2Proof.Laws.LegalEncoding
end

