-- ==== Sys2Proof/Tests/Slice0.lean ====
section
/-! SUPPORT. The model's own tests: small closed facts whose expected results are the spec's (95_test_vectors.md, and the
command words written out from 30_encoding.md), and, for each statement with hypotheses, a witness that meets them. -/

namespace Sys2Proof.Tests

open Sys2Proof.Machine

/-- The next state of an outcome, if it has one. -/
def after (o : Out) : Option State :=
  match o with
  | .next t => some t
  | _ => none

/-- S0, S1 and the phase after an outcome. -/
def shown (o : Out) : Option (GenState × Phase) := (after o).map (fun t => (t.gen, t.phase))

/-- The machine after reset, with another generator state. -/
def from_ (g : GenState) : State := { State.reset with gen := g }

/-- The machine with a command accepted and words presented. -/
def accepted (i : Instr) (xs : List WordTransfer) : State :=
  { State.reset with phase := .accepted (encode i), words := xs }

/-- The response OK with zero data, pending. -/
def okZero : Phase := .responding ⟨.ok, 0, 0⟩

/-! ## Decoding: the words of R310, written out bit by bit (RSV, WSEL, OP) -/

theorem test_decode_seedU64 : decode ⟨0b00000001, 5, 6⟩ = .ok (.seedU64 5) := by decide
theorem test_decode_seedDefault : decode ⟨0b00000010, 5, 6⟩ = .ok .seedDefault := by decide
theorem test_decode_seedWords8 : decode ⟨0b00000011, 5, 6⟩ = .ok (.seedWords .w8) := by decide
theorem test_decode_seedWords16 : decode ⟨0b00010011, 5, 6⟩ = .ok (.seedWords .w16) := by decide
theorem test_decode_seedWords32 : decode ⟨0b00100011, 5, 6⟩ = .ok (.seedWords .w32) := by decide
theorem test_decode_seedWords64 : decode ⟨0b00110011, 5, 6⟩ = .ok (.seedWords .w64) := by decide
theorem test_decode_loadState : decode ⟨0b00000100, 5, 6⟩ = .ok (.loadState 5 6) := by decide
theorem test_decode_next : decode ⟨0b00000101, 5, 6⟩ = .ok .next := by decide
theorem test_decode_discard : decode ⟨0b00000110, 5, 6⟩ = .ok (.discard 5) := by decide
theorem test_decode_jump : decode ⟨0b00000111, 5, 6⟩ = .ok .jump := by decide
theorem test_decode_jumpn : decode ⟨0b00001000, 5, 6⟩ = .ok (.jumpn 5) := by decide
theorem test_decode_readState : decode ⟨0b00001001, 5, 6⟩ = .ok .readState := by decide
/-- V-IL-1 to V-IL-6. -/
theorem test_decode_illegal :
    decode ⟨0x00, 0, 0⟩ = .error .reservedOpcode ∧ decode ⟨0x0A, 0, 0⟩ = .error .reservedOpcode ∧
    decode ⟨0x0F, 0, 0⟩ = .error .reservedOpcode ∧ decode ⟨0x45, 0, 0⟩ = .error .reservedBits ∧
    decode ⟨0x85, 0, 0⟩ = .error .reservedBits ∧ decode ⟨0x15, 0, 0⟩ = .error .strayWidth := by decide
/-- The numbering of log entry 8: CMD, then ARG0, then ARG1. -/
theorem test_decodeTableWord_operands :
    decodeTableWord 8 0x05 = some .next ∧ decodeTableWord 136 (0x04 + 7 * 2 ^ 8 + 9 * 2 ^ 72) = some (.loadState 7 9) ∧
    decodeTableWord 8 0x15 = none := by decide

/-! ## Well-formedness: an ill-formed term for each check, refused -/

theorem test_wellFormed_reservedBits : (Command.mk 0x45 0 0).wellFormed = false := by decide
theorem test_wellFormed_opcodeZero : (Command.mk 0x00 0 0).wellFormed = false := by decide
theorem test_wellFormed_opcodeTen : (Command.mk 0x0A 0 0).wellFormed = false := by decide
theorem test_wellFormed_strayWidth : (Command.mk 0x15 0 0).wellFormed = false := by decide
theorem test_wellFormed_legal : ∀ x ∈ legalCommandWords, (Command.mk x 0 0).wellFormed = true := by decide
theorem test_wellFormed_line_tooFewWords : (Line.mk (.seedWords .w64) [.word 1]).wellFormed = false := by decide
theorem test_wellFormed_line_tooManyWords :
    (Line.mk (.seedWords .w64) [.word 1, .word 2, .word 3]).wellFormed = false := by decide
theorem test_wellFormed_line_wordsAfterFailure :
    (Line.mk (.seedWords .w64) [.err, .word 2]).wellFormed = false := by decide
theorem test_wellFormed_line_wordsForNext : (Line.mk .next [.word 1]).wellFormed = false := by decide
theorem test_wellFormed_config : (Config.mk 0 (fun _ => (0, 0)) 0 0).wellFormed = false := by decide

/-! ## The commands -/

/-- V-SU-1. -/
theorem test_seedU64_zero : shown (exec (.seedU64 0) State.reset) =
    some (⟨0xE220A8397B1DCDAF, 0x6E789E6AA1B965F4⟩, okZero) := by decide
/-- V-SU-5: one zero word, kept. -/
theorem test_seedU64_oneZeroWord : shown (exec (.seedU64 0x61C8864680B583EB) State.reset) =
    some (⟨0, 0xE220A8397B1DCDAF⟩, okZero) := by decide
/-- V-SD-1: ARG0 and ARG1 ignored. -/
theorem test_seedDefault_ignoresOperands : shown (step ((from_ ⟨1, 2⟩).withAccepted ⟨0x02, 55, 66⟩)) =
    some (⟨0xE4D971771B652C20, 0xE99FF867DBF682C9⟩, okZero) := by decide
/-- V-SW-9: high bits ignored. -/
theorem test_seedWords_highBits : shown (exec (.seedWords .w32)
      (accepted (.seedWords .w32) [.word 0xFFFFFFFF00000001, .word 0xAAAAAAAA00000002, .word 3, .word 4])) =
    some (⟨0x0000000200000001, 0x0000000400000003⟩, okZero) := by decide
/-- V-SW-10: the failing transfer is taken, no more; the state is unchanged. -/
theorem test_seedWords_failure : (after (exec (.seedWords .w32)
      (accepted (.seedWords .w32) [.word 1, .err, .word 7]))).map (fun t => (t.gen, t.phase, t.words)) =
    some (⟨0xE4D971771B652C20, 0xE99FF867DBF682C9⟩, .responding ⟨.srcErr, 0, 0⟩, [.word 7]) := by decide
/-- V-LS-2: re-seeded. -/
theorem test_loadState_zero : shown (exec (.loadState 0 0) (from_ ⟨1, 2⟩)) =
    some (⟨0xE4D971771B652C20, 0xE99FF867DBF682C9⟩, okZero) := by decide
/-- V-LS-3. -/
theorem test_loadState_oneZeroWord : shown (exec (.loadState 0 1) State.reset) = some (⟨0, 1⟩, okZero) := by decide
/-- V-ST-5: the sum wraps to 0, from the state before the step. -/
theorem test_next_wraps : shown (exec .next (from_ ⟨0xFFFFFFFFFFFFFFFF, 1⟩)) =
    some (⟨0xFFFFFFFFFFFF8001, 0xFFFFFFEFFFFFFFFF⟩, .responding ⟨.ok, 0, 0⟩) := by decide
/-- V-NX-1. -/
theorem test_next_fromReset : shown (exec .next State.reset) =
    some (⟨0xBF70D58C90A45C7F, 0x093AEE90D468910C⟩, .responding ⟨.ok, 0xCE7969DEF75BAEE9, 0⟩) := by decide
/-- V-DI-1. -/
theorem test_discard_zero : shown (exec (.discard 0) (from_ ⟨1, 2⟩)) = some (⟨1, 2⟩, okZero) := by decide
/-- V-DI-6. -/
theorem test_discard_three : shown (exec (.discard 3) (from_ ⟨1, 2⟩)) =
    some (⟨0x2080C82020C0C363, 0x8000363010040003⟩, okZero) := by decide
/-- V-JU-1: column 0 of J. -/
theorem test_jump_columnZero : shown (exec .jump (from_ ⟨1, 0⟩)) =
    some (⟨0x966F5509BB41F421, 0x5FCD7CB640A13B03⟩, okZero) := by decide
/-- V-JU-3. -/
theorem test_jump_oneTwo : shown (exec .jump (from_ ⟨1, 2⟩)) =
    some (⟨0x814146B67B285F30, 0x7F6FF236623B4E25⟩, okZero) := by decide
/-- V-JU-7. -/
theorem test_jumpn_zero : shown (exec (.jumpn 0) (from_ ⟨1, 2⟩)) = some (⟨1, 2⟩, okZero) := by decide
/-- V-JU-9. -/
theorem test_jumpn_two : shown (exec (.jumpn 2) State.reset) =
    some (⟨0x298B9D9CB92B7A8D, 0xA10ADDA5E1B54D2C⟩, okZero) := by decide +kernel
/-- V-RS-1. -/
theorem test_readState : shown (exec .readState (from_ ⟨1, 2⟩)) =
    some (⟨1, 2⟩, .responding ⟨.ok, 1, 2⟩) := by decide
/-- V-JU-3 by the matrix of R606. -/
theorem test_jumpByMatrix_oneTwo : jumpByMatrix ⟨1, 2⟩ = ⟨0x814146B67B285F30, 0x7F6FF236623B4E25⟩ := by decide +kernel

/-! ## The life of a command, errors and reset -/

/-- V-IL-7: an illegal word is answered, and no word is taken. -/
theorem test_illegal_takesNoWord :
    step { State.reset with phase := .accepted ⟨0x43, 0, 0⟩, words := [.word 1] } =
      .next { State.reset with phase := .responding ⟨.illegal, 0, 0⟩, words := [.word 1] } := by rfl
/-- V-RE-1. -/
theorem test_reset_values : State.reset.gen = ⟨0xE4D971771B652C20, 0xE99FF867DBF682C9⟩ ∧
    State.reset.cmdReady = true ∧ State.reset.rspValid = false := by decide
/-- V-RE-3: reset after 2 of 4 words; no response, the reset state, and the 2 words are gone. -/
theorem test_reset_duringSeedWords : after (runEvents
      [.env (.present ⟨0x23, 0, 0⟩), .block, .env (.offer (.word 1)), .env (.offer (.word 2)), .block,
        .env .requestReset, .block] State.reset) = some State.reset := by decide
/-- V-RE-2: reset during a long DISCARD; no response, the reset state. -/
theorem test_reset_duringDiscard : after (runEvents
      [.env (.present ⟨0x06, 0xFFFFFFFFFFFFFFFF, 0⟩), .block, .env .requestReset, .block] (from_ ⟨1, 2⟩)) =
    some State.reset := by decide
/-- R304: a word presented while no command needs words, and no longer presented when one does, is not taken. -/
theorem test_earlyWord_withdrawn : (after (runEvents
      [.env (.offer (.word 7)), .block, .env .withdrawWords, .env (.present ⟨0x33, 0, 0⟩), .env (.offer (.word 1)),
        .env (.offer (.word 2)), .block, .block] State.reset)).map State.gen = some ⟨1, 2⟩ := by decide
/-- The word that the host's check stores is run by the very next step (log entry 7). -/
theorem test_withFetchWord_runs : shown (step (State.reset.withFetchWord 8 0x05)) =
    some (⟨0xBF70D58C90A45C7F, 0x093AEE90D468910C⟩, .responding ⟨.ok, 0xCE7969DEF75BAEE9, 0⟩) := by decide

/-! ## Witnesses: for each statement with hypotheses, states and operands that meet them -/

/-- SEED_WORDS.W64 waiting, with its first word staged. -/
def waiting64 : State := { State.reset with phase := .waiting .w64 [1] }

/-- A response pending. -/
def answered (r : Response) : State := { State.reset with phase := .responding r }

/-- A NEXT accepted after an illegal word, both at the port's edge values. -/
def illegalThenNext : State :=
  { State.reset with phase := .accepted ⟨0xFF, 0, 0⟩, cmds := [⟨0x05, 0, 0⟩] }

theorem witness_CommandWordsDecodeAsAssigned :
    (Command.mk 0x00 0 0).op = 0x0 ∧ (Command.mk 0x0A 0 0).op = 0xA ∧ (Command.mk 0xFF 0 0).op = 0xF := by decide
theorem witness_WidthSelectGivesWidthAndCount :
    decode ⟨0x03, 0, 0⟩ = .ok (.seedWords .w8) ∧ decode ⟨0x33, 0, 0⟩ = .ok (.seedWords .w64) := by decide
theorem witness_DecodeChecksInOrder :
    (Command.mk 0xC0 0 0).rsv ≠ 0 ∧
    ((Command.mk 0x0A 0 0).rsv = 0 ∧ 0xA ≤ (Command.mk 0x0A 0 0).op.toNat) ∧
    ((Command.mk 0x19 0 0).rsv = 0 ∧ ¬ ((Command.mk 0x19 0 0).op = 0 ∨ 0xA ≤ (Command.mk 0x19 0 0).op.toNat) ∧
      (Command.mk 0x19 0 0).op ≠ 3 ∧ (Command.mk 0x19 0 0).wsel ≠ 0) ∧
    (illegalThenNext.rst = false ∧ illegalThenNext.gen ≠ GenState.degenerate ∧
      illegalThenNext.phase = .accepted ⟨0xFF, 0, 0⟩ ∧ decode ⟨0xFF, 0, 0⟩ = .error .reservedBits) := by decide
theorem witness_DecodeEncodeRoundTrip : decode ⟨0x33, 5, 6⟩ = .ok (.seedWords .w64) := by decide
theorem witness_UnusedOperandsIgnored :
    ((Command.mk 0x05 1 2).cmd = (Command.mk 0x05 3 4).cmd ∧ (Command.mk 0x05 1 2).op.toNat ∉ [1, 4, 6, 8]) ∧
    ((Command.mk 0x06 1 2).op.toNat ≠ 4 ∧ (Command.mk 0x06 1 2).arg0 = (Command.mk 0x06 1 4).arg0) ∧
    (let s : State := { State.reset with cmds := [⟨0x05, 0, 0⟩] }
     s.rst = false ∧ s.gen ≠ GenState.degenerate ∧ s.phase = .idle ∧ s.cmds = ⟨0x05, 0, 0⟩ :: []) := by decide
theorem witness_StepRunsAcceptedCommand :
    (let s := accepted .next []
     s.rst = false ∧ s.gen ≠ GenState.degenerate ∧ s.phase = .accepted ⟨0x05, 0, 0⟩ ∧
      decode ⟨0x05, 0, 0⟩ = .ok .next) ∧
    (waiting64.rst = false ∧ waiting64.gen ≠ GenState.degenerate ∧ waiting64.phase = .waiting .w64 [1]) ∧
    (State.reset.gen ≠ GenState.degenerate ∧ decodeTableWord 8 0x05 = some .next) := by decide
theorem witness_BusyFromAcceptanceToResponse :
    (let s : State := { State.reset with cmds := [⟨0x05, 0, 0⟩] }
     s.gen ≠ GenState.degenerate ∧ s.cmdReady = true ∧ s.cmds = ⟨0x05, 0, 0⟩ :: []) ∧
    ((accepted .next []).cmdReady = false ∧ (after (step (accepted .next []))).isSome = true) ∧
    ((answered ⟨.ok, 0, 0⟩).phase ≠ .idle ∧
      (after (step (answered ⟨.ok, 0, 0⟩))).map (fun t => t.phase) = some .idle) := by decide
theorem witness_ResponseHeldUntilTaken :
    (answered ⟨.ok, 1, 2⟩).gen ≠ GenState.degenerate ∧ (answered ⟨.ok, 1, 2⟩).phase = .responding ⟨.ok, 1, 2⟩ ∧
    (answered ⟨.ok, 1, 2⟩).rst = false ∧ (answered ⟨.ok, 1, 2⟩).rspReady = true ∧
    ({ answered ⟨.ok, 1, 2⟩ with rspReady := false }).rspReady = false ∧
    ({ answered ⟨.ok, 1, 2⟩ with rst := true }).rst = true := by decide
theorem witness_OneResponsePerAcceptedCommand :
    (accepted .next []).rst = false ∧
    (after (step (accepted .next []))).map (fun t => t.phase) =
      some (.responding ⟨.ok, 0xCE7969DEF75BAEE9, 0⟩) ∧
    (after (step (accepted .readState []))).map (fun t => t.phase) =
      some (.responding ⟨.ok, 0xE4D971771B652C20, 0xE99FF867DBF682C9⟩) ∧
    (after (step (accepted .seedDefault []))).map (fun t => t.phase) = some okZero := by decide
theorem witness_IllegalCommandOnlyResponds :
    illegalThenNext.rst = false ∧ illegalThenNext.gen ≠ GenState.degenerate ∧
    illegalThenNext.phase = .accepted ⟨0xFF, 0, 0⟩ ∧ decode ⟨0xFF, 0, 0⟩ = .error .reservedBits ∧
    illegalThenNext.rspReady = true ∧ illegalThenNext.cmds = ⟨0x05, 0, 0⟩ :: [] := by decide
theorem witness_OtherCommandsAlwaysRespondOk :
    (∀ w, (Instr.jump) ≠ .seedWords w) ∧
    (after (exec .seedDefault State.reset)).map (fun t => t.phase) = some okZero ∧
    (after (exec (.seedWords .w64) (accepted (.seedWords .w64) [.err]))).map (fun t => t.phase) =
      some (.responding ⟨.srcErr, 0, 0⟩) := ⟨(by intro w h; cases h), by decide, by decide⟩
theorem witness_WordPortServesSeedWordsOnly :
    (accepted .next [.word 1]).wReady = false ∧ (after (step (accepted .next [.word 1]))).isSome = true ∧
    (accepted (.seedWords .w8) []).wReady = true := by decide
theorem witness_StateWrittenOnlyAtCompletion :
    (after (step (accepted .next []))).map (fun t => decide (t.gen ≠ (accepted .next []).gen)) = some true ∧
    (accepted .next []).phase = .accepted ⟨0x05, 0, 0⟩ ∧ waiting64.phase = .waiting .w64 [1] ∧
    (after (step waiting64)).isSome = true := by decide
theorem witness_ValidateReseedsOnlyDegenerate :
    (Config.mk 0 (fun _ => (0, 0)) 0 0).seedExpand 0 = (0, 0) ∧
    Config.standard.seedExpand Config.standard.defaultSeed ≠ (0, 0) := by decide
theorem witness_SeedingEndsWithValidation :
    (let s := accepted (.seedWords .w64) [.word 0, .word 0, .err]
     (s.stagedFor .w64).length + ([0, 0] : List Word).length = WordWidth.w64.count ∧
      s.words = ([0, 0] : List Word).map .word ++ [.err]) ∧
    (let s : State := { waiting64 with words := [.word 2] }
     s.phase.sound = true ∧ (s.stagedFor .w64).length + ([2] : List Word).length = WordWidth.w64.count ∧
      s.words = ([2] : List Word).map .word ++ [] ∧
      shown (execWith Config.standard (.seedWords .w64) s) = some (⟨1, 2⟩, okZero)) ∧
    ({ State.reset with rst := true }).rst = true ∧ Config.standard.wellFormed = true := by decide
theorem witness_SameSeedSameSequence : Config.standard.seedExpand 0 ≠ (0, 0) := by decide
theorem witness_LoadStateCopiesOperands :
    ¬ ((0 : Word) = 0 ∧ (1 : Word) = 0) ∧ State.reset.gen ≠ ⟨0, 0⟩ := by decide
theorem witness_PackIsLittleEndian :
    ([0, 0xFFFFFFFF, 1, 2] : List Word).length = WordWidth.w32.count ∧
    (∀ x ∈ ([0, 0xFFFFFFFF, 1, 2] : List Word), x.toNat < 2 ^ 32) ∧
    (∀ x ∈ ([0, 0xFFFF, 1, 2, 3, 4, 5, 6] : List Word), x.toNat < 2 ^ 16) ∧
    (∀ x ∈ ([0, 0xFF, 1, 2, 3, 4, 5, 6, 7, 8, 9, 10, 11, 12, 13, 14] : List Word), x.toNat < 2 ^ 8) := by
  simp [WordWidth.count, WordWidth.bits]
theorem witness_SeedWordsCompletesWithAllWords :
    (let s := accepted (.seedWords .w64) [.word 1, .word 2, .err]
     s.phase = .accepted ⟨0x33, 0, 0⟩ ∧ ([] : List Word).length + ([1, 2] : List Word).length = WordWidth.w64.count ∧
      s.words = ([1, 2] : List Word).map .word ++ [.err]) ∧
    (let s : State := { waiting64 with words := [.word 2] }
     s.phase = .waiting .w64 [1] ∧ ([1] : List Word).length + ([2] : List Word).length = WordWidth.w64.count ∧
      s.words = ([2] : List Word).map .word ++ []) := by decide
theorem witness_SeedWordsFailureLeavesState :
    (let s := accepted (.seedWords .w64) [.word 1, .err, .word 3]
     s.phase = .accepted ⟨0x33, 0, 0⟩ ∧ ([] : List Word).length + ([1] : List Word).length < WordWidth.w64.count ∧
      s.words = ([1] : List Word).map .word ++ .err :: [.word 3]) ∧
    shown (exec (.seedWords .w64) (accepted (.seedWords .w64) [.word 1, .err, .word 3])) =
      some (State.reset.gen, .responding ⟨.srcErr, 0, 0⟩) := by decide
theorem witness_SeedWordsHoldsForWords :
    (let s := accepted (.seedWords .w64) [.word 1]
     s.phase = .accepted ⟨0x33, 0, 0⟩ ∧ ([] : List Word).length + ([1] : List Word).length < WordWidth.w64.count ∧
      s.words = ([1] : List Word).map .word) ∧
    (waiting64.gen ≠ GenState.degenerate ∧ waiting64.phase = .waiting .w64 [1] ∧
      ([1] : List Word).length < WordWidth.w64.count ∧ waiting64.words = [] ∧ waiting64.rst = false ∧
      ({ waiting64 with rst := true }).rst = true) := by decide
theorem witness_SeedWordHighBitsIgnored :
    ([0x101, 2] : List Word).length ≤ WordWidth.w8.count ∧
    (accepted (.seedWords .w8) []).phase = .accepted ⟨0x03, 0, 0⟩ ∧
    ([0x101, 2] : List Word).map (fun d => d.toNat % 2 ^ WordWidth.w8.bits) =
      ([0x001, 2] : List Word).map (fun d => d.toNat % 2 ^ WordWidth.w8.bits) := by decide
theorem witness_WellFormedLineCompletes :
    (Line.mk (.seedWords .w64) [.word 1, .err]).wellFormed = true ∧ State.reset.gen ≠ GenState.degenerate ∧
    State.reset.rst = false ∧ State.reset.phase = .idle ∧ State.reset.cmds = [] ∧ State.reset.words = [] ∧
    State.reset.rspReady = true := by decide
theorem witness_StepAsTranscribed : (accepted .next []).gen = State.reset.gen := by decide
theorem witness_StepBitByBit : (0 : Nat) < 64 ∧ (13 : Nat) < 64 ∧ (14 : Nat) < 64 ∧ (63 : Nat) < 64 := by decide
theorem witness_StepHasFullPeriod : (⟨1, 0⟩ : GenState) ≠ ⟨0, 0⟩ ∧ (⟨0, 1⟩ : GenState) ≠ ⟨0, 0⟩ := by decide
theorem witness_JumpStreamsDisjoint :
    (⟨1, 0⟩ : GenState) ≠ ⟨0, 0⟩ ∧ (2 ^ 64 - 2) + 1 ≤ 2 ^ 64 - 1 ∧ 0 < 2 ^ 64 - 2 ∧ 2 ^ 64 - 2 ≤ 2 ^ 64 - 2 ∧
    0 < 2 ^ 64 ∧ 2 ^ 64 - 1 < 2 ^ 64 := ⟨(by decide), by norm_num⟩
theorem witness_JumpThenNextDiffersFromDiscardOne : State.reset.gen ≠ GenState.degenerate := by decide
theorem witness_ReadThenLoadClonesState : (from_ ⟨0, 1⟩).gen ≠ GenState.degenerate := by decide
theorem witness_EqualStatesStayEqual :
    (after (exec .readState State.reset)).isSome = true ∧
    (State.reset.gen = (accepted .next []).gen ∧ State.reset.words = (accepted .next []).words ∧
      (∀ w ∈ [WordWidth.w8, .w16, .w32, .w64], State.reset.stagedFor w = (accepted .next []).stagedFor w) ∧
      (after (exec .next State.reset)).isSome = true) ∧
    (after (runEvents [.env (.present ⟨0x05, 0, 0⟩), .block, .block, .block] State.reset)).isSome = true := by decide
theorem witness_ResetAbandonsCommand : ({ waiting64 with rst := true }).rst = true := by decide
theorem witness_ConfigurationPremise :
    Config.standard.wellFormed = true ∧ ({ State.reset with rst := true }).rst = true ∧
    (after (stepWith Config.standard { State.reset with rst := true })).isSome = true ∧
    State.reset.gen ≠ ⟨0, 0⟩ ∧ (Instr.next) ≠ .jump ∧
    (after (execWith Config.standard .next State.reset)).isSome = true := by decide
theorem witness_IdleBlockHolds :
    State.reset.rst = false ∧ State.reset.gen ≠ GenState.degenerate ∧ State.reset.phase = .idle ∧
    State.reset.cmds = [] := by decide
theorem witness_DegenerateStateFaults :
    ((from_ ⟨0, 0⟩).rst = false ∧ (from_ ⟨0, 0⟩).gen = ⟨0, 0⟩) ∧
    ¬ (State.reset.rst = false ∧ State.reset.gen = ⟨0, 0⟩) := by decide
theorem witness_StepKeepsInvariant : Inv waiting64 ∧ (after (step waiting64)).isSome = true := by decide

end Sys2Proof.Tests
end

section
/-! SUPPORT. What decoding does, check by check (R311), and what it reads of a sample (R303). -/

namespace Sys2Proof

theorem decode_of_rsv_ne {c : Command} (h : c.rsv ≠ 0) : decode c = .error .reservedBits :=
  if_pos h

theorem decode_of_reservedOp {c : Command} (hrsv : c.rsv = 0) (h : c.op = 0 ∨ 10 ≤ c.op.toNat) :
    decode c = .error .reservedOpcode := by
  rw [decode, if_neg (not_not.mpr hrsv), if_pos h]

theorem decode_of_wsel_ne {c : Command} (hrsv : c.rsv = 0) (hop : ¬ (c.op = 0 ∨ 10 ≤ c.op.toNat))
    (h3 : c.op ≠ 3) (hw : c.wsel ≠ 0) : decode c = .error .strayWidth := by
  rw [decode, if_neg (not_not.mpr hrsv), if_neg hop, if_pos ⟨h3, hw⟩]

theorem Command.wellFormed_iff (c : Command) :
    c.wellFormed = true ↔ c.rsv = 0 ∧ ¬ (c.op = 0 ∨ 10 ≤ c.op.toNat) ∧ (c.op = 3 ∨ c.wsel = 0) := by
  simp [Command.wellFormed, and_assoc]

theorem decode_of_wellFormed {c : Command} (h : c.wellFormed = true) : decode c = decodeOp c := by
  obtain ⟨hrsv, hop, hw⟩ := c.wellFormed_iff.mp h
  rw [decode, if_neg (not_not.mpr hrsv), if_neg hop, if_neg (by tauto)]

/-- A sample that fails a check of R311 is rejected, by the first check it fails. -/
theorem decode_of_not_wellFormed {c : Command} (h : ¬ c.wellFormed = true) : ∃ e, decode c = .error e := by
  rw [c.wellFormed_iff] at h
  by_cases hrsv : c.rsv = 0
  · by_cases hop : c.op = 0 ∨ 10 ≤ c.op.toNat
    · exact ⟨_, decode_of_reservedOp hrsv hop⟩
    · exact ⟨_, decode_of_wsel_ne hrsv hop (by tauto) (by tauto)⟩
  · exact ⟨_, decode_of_rsv_ne hrsv⟩

theorem decode_error_of_reservedOp {c : Command} (h : c.op = 0 ∨ 10 ≤ c.op.toNat) :
    ∃ e, decode c = .error e :=
  decode_of_not_wellFormed fun hwf => (c.wellFormed_iff.mp hwf).2.1 h

/-- The opcode map gives every assigned OP a command (R310). -/
theorem decodeOp_of_assigned {c : Command} (h : ¬ (c.op = 0 ∨ 10 ≤ c.op.toNat)) :
    ∃ i, decodeOp c = .ok i := by
  have hpos : c.op.toNat ≠ 0 := fun h0 => h (.inl (BitVec.eq_of_toNat_eq h0))
  have hlt : c.op.toNat < 10 := by omega
  unfold decodeOp
  interval_cases c.op.toNat
  · exact absurd rfl hpos
  all_goals exact ⟨_, rfl⟩

/-- The samples that decode are the well-formed ones. -/
theorem decode_ok_iff_wellFormed (c : Command) : (∃ i, decode c = .ok i) ↔ c.wellFormed = true := by
  constructor
  · rintro ⟨i, hi⟩
    by_contra h
    obtain ⟨e, he⟩ := decode_of_not_wellFormed h
    rw [hi] at he
    cases he
  · intro h
    rw [decode_of_wellFormed h]
    exact decodeOp_of_assigned (c.wellFormed_iff.mp h).2.1

theorem decodeOp_of_decode {c : Command} {i : Instr} (h : decode c = .ok i) : decodeOp c = .ok i := by
  rw [← decode_of_wellFormed ((decode_ok_iff_wellFormed c).mp ⟨i, h⟩), h]

/-- Being well formed is a matter of CMD alone. -/
theorem Command.wellFormed_congr {c c' : Command} (h : c.cmd = c'.cmd) : c.wellFormed = c'.wellFormed := by
  obtain ⟨cmd, a, b⟩ := c
  cases h
  rfl

/-- The well-formed command words are the 12 that R311 lists. -/
theorem Command.wellFormed_iff_mem (c : Command) : c.wellFormed = true ↔ c.cmd ∈ legalCommandWords := by
  have hall : ∀ x : BitVec 8, (Command.mk x 0 0).wellFormed = true ↔ x ∈ legalCommandWords := by decide
  rw [← hall]
  rfl

/-- A legal command word goes to the opcode map, whatever the operands are. -/
theorem decode_of_legal {x : BitVec 8} (h : x ∈ legalCommandWords) (a b : Word) :
    decode ⟨x, a, b⟩ = decodeOp ⟨x, a, b⟩ :=
  decode_of_wellFormed ((Command.wellFormed_iff_mem _).mpr h)

/-- What the opcode map reads: CMD; ARG0 for the four commands that use it; ARG1 for LOAD_STATE only (R307). -/
theorem decodeOp_congr {c c' : Command} (hcmd : c.cmd = c'.cmd)
    (h0 : c.op.toNat ∈ [1, 4, 6, 8] → c.arg0 = c'.arg0) (h1 : c.op.toNat = 4 → c.arg1 = c'.arg1) :
    decodeOp c = decodeOp c' := by
  have hop : c'.op = c.op := by simp only [Command.op, hcmd]
  have hwsel : c'.wsel = c.wsel := by simp only [Command.wsel, hcmd]
  simp only [decodeOp, hop, hwsel]
  split <;> simp_all

/-- Decoding reads no operand that the command does not use (R303). -/
theorem decode_congr {c c' : Command} (hcmd : c.cmd = c'.cmd)
    (h0 : c.op.toNat ∈ [1, 4, 6, 8] → c.arg0 = c'.arg0) (h1 : c.op.toNat = 4 → c.arg1 = c'.arg1) :
    decode c = decode c' := by
  have hdec := decodeOp_congr hcmd h0 h1
  obtain ⟨cmd, a, b⟩ := c
  cases hcmd
  simp only [decode, hdec]
  rfl

/-- The width of a SEED_WORDS is the one its WSEL selects (R308). -/
theorem width_of_decode_seedWords {c : Command} {w : WordWidth} (h : decode c = .ok (.seedWords w)) :
    w = widthOfWsel c.wsel := by
  have h' := decodeOp_of_decode h
  unfold decodeOp at h'
  split at h' <;> cases h'
  rfl

end Sys2Proof
end

section
/-! SUPPORT. One equation of `step` for each place in the life of a command, when no reset is requested and the state is
not degenerate (R114's premise). -/

namespace Sys2Proof.Machine

theorem step_idle {s : State} (hr : s.rst = false) (hg : s.gen ≠ GenState.degenerate) (hp : s.phase = .idle) :
    step s = .next s.accept := by
  simp [step, lifecycle, hr, hg, hp]

theorem step_accepted {s : State} {c : Command} (hr : s.rst = false) (hg : s.gen ≠ GenState.degenerate)
    (hp : s.phase = .accepted c) : step s = runAccepted exec c s := by
  simp [step, lifecycle, hr, hg, hp]

theorem runAccepted_ok {ex : Instr → State → Out} {c : Command} {i : Instr} (h : decode c = .ok i) (s : State) :
    runAccepted ex c s = ex i s := by
  simp [runAccepted, h]

theorem runAccepted_error {ex : Instr → State → Out} {c : Command} {e : DecodeError} (h : decode c = .error e)
    (s : State) : runAccepted ex c s = .next (s.raise .illegal) := by
  simp [runAccepted, h]

/-- R311: a word that fails a check only presents ILLEGAL. -/
theorem step_accepted_error {s : State} {c : Command} {e : DecodeError} (hr : s.rst = false)
    (hg : s.gen ≠ GenState.degenerate) (hp : s.phase = .accepted c) (he : decode c = .error e) :
    step s = .next { s with phase := .responding ⟨.illegal, 0, 0⟩ } := by
  rw [step_accepted hr hg hp, runAccepted_error he]
  rfl

end Sys2Proof.Machine
end

section
/-! SUPPORT. The command port does not influence a command in flight (R303). -/

namespace Sys2Proof.Machine

/-- The outcome with its next state changed by f. -/
def Out.mapNext (f : State → State) : Out → Out
  | .next s => .next (f s)
  | .fault r => .fault r
  | .refused r => .refused r

@[simp] theorem Out.mapNext_next (f : State → State) (s : State) : Out.mapNext f (.next s) = .next (f s) := rfl

/-- The same machine with other commands standing on the command port. -/
def State.withCmds (s : State) (cs : List Command) : State := { s with cmds := cs }

/-- No command reads the command port, or changes it. -/
theorem exec_withCmds (i : Instr) (s : State) (cs : List Command) :
    exec i (s.withCmds cs) = Out.mapNext (State.withCmds · cs) (exec i s) := by
  cases i with
  | seedWords w =>
    change runSeedWords _ w (s.withCmds cs) = Out.mapNext _ (runSeedWords _ w s)
    have hstaged : (s.withCmds cs).stagedFor w = s.stagedFor w := rfl
    have hwords : (s.withCmds cs).words = s.words := rfl
    simp only [runSeedWords, hstaged, hwords]
    cases takeWords w (w.count - (s.stagedFor w).length) s.words <;> rfl
  | _ => rfl

theorem runAccepted_withCmds (c : Command) (s : State) (cs : List Command) :
    runAccepted exec c (s.withCmds cs) = Out.mapNext (State.withCmds · cs) (runAccepted exec c s) := by
  cases h : decode c with
  | error e => simp only [runAccepted_error h]; rfl
  | ok i => simp only [runAccepted_ok h, exec_withCmds]

theorem step_accepted_withCmds {s : State} {c : Command} (hr : s.rst = false) (hg : s.gen ≠ GenState.degenerate)
    (hp : s.phase = .accepted c) (cs : List Command) :
    step (s.withCmds cs) = Out.mapNext (State.withCmds · cs) (step s) := by
  have hp' : (s.withCmds cs).phase = .accepted c := hp
  have hr' : (s.withCmds cs).rst = false := hr
  have hg' : (s.withCmds cs).gen ≠ GenState.degenerate := hg
  rw [step_accepted hr hg hp, step_accepted hr' hg' hp', runAccepted_withCmds]

end Sys2Proof.Machine
end

section
/-! SUPPORT. What a command leaves unchanged and what it answers with, and what a step that goes on has done. -/

namespace Sys2Proof.Machine

/-- What every command leaves unchanged: the command port and the responses taken. And it stays in flight, waiting or
with its response pending. -/
theorem exec_frame {i : Instr} {s t : State} (h : exec i s = .next t) :
    t.phase ≠ .idle ∧ t.cmds = s.cmds ∧ t.responses = s.responses := by
  rw [exec_eq_execWith] at h
  obtain ⟨g, d0, d1, xs, he, -⟩ | ⟨w, xs, -, he⟩ | ⟨w, ds, -, -, -, he⟩ := execWith_cases Config.standard i s
  all_goals
    rw [he] at h
    cases h
    simp

/-- DISCARD 0 takes no step: it only responds (R520). -/
theorem exec_discard_zero (s : State) : exec (.discard 0) s = .next { s with phase := .responding ⟨.ok, 0, 0⟩ } := by
  change Host.Outcome.next (s.complete (genAdvance (countOperand 0) s.gen) okResponse) = _
  rw [show countOperand 0 = 0 from rfl, genAdvance_zero]
  rfl

/-- R305: a command other than NEXT and READ_STATE responds with zero data. -/
theorem exec_response_data_zero {i : Instr} {s t : State} {r : Response} (hn : i ≠ .next) (hrs : i ≠ .readState)
    (h : exec i s = .next t) (hp : t.phase = .responding r) : r.data0 = 0 ∧ r.data1 = 0 := by
  cases i with
  | next => exact absurd rfl hn
  | readState => exact absurd rfl hrs
  | seedWords w =>
    change runSeedWords Config.standard w s = .next t at h
    obtain ⟨ds, rest, -, -, he⟩ | ⟨ds, rest, -, -, he⟩ | ⟨ds, -, -, he⟩ := runSeedWords_cases Config.standard w s
    all_goals
      rw [he] at h
      cases h
      cases hp
    · exact ⟨rfl, rfl⟩
    · exact ⟨rfl, rfl⟩
  | _ =>
    cases h
    cases hp
    exact ⟨rfl, rfl⟩

/-- What a step has done when it goes on: taken a reset, looked for a command, gone on with the command in flight, or
offered the response. -/
theorem step_next_cases {s t : State} (h : step s = .next t) :
    (s.rst = true ∧ t = s.takeReset Config.standard) ∨
    (s.rst = false ∧ s.phase = .idle ∧ t = s.accept) ∨
    (s.rst = false ∧ s.phase ≠ .idle ∧ t.phase ≠ .idle ∧ t.cmds = s.cmds ∧ t.responses = s.responses) ∨
    (s.rst = false ∧ ∃ r, s.phase = .responding r ∧ t = s.deliver r) := by
  obtain ⟨hr, he⟩ | ⟨-, -, he⟩ | ⟨hr, -, hs⟩ := step_cases s
  · rw [he] at h; cases h
    exact .inl ⟨hr, rfl⟩
  · rw [he] at h; cases h
  · obtain ⟨hp, he⟩ | ⟨c, e, hp, -, he⟩ | ⟨c, i, hp, -, he⟩ | ⟨w, staged, hp, he⟩ | ⟨r, hp, he⟩ := hs
    all_goals rw [he] at h
    · cases h
      exact .inr (.inl ⟨hr, hp, rfl⟩)
    · cases h
      exact .inr (.inr (.inl ⟨hr, by simp [hp], by simp⟩))
    · exact .inr (.inr (.inl ⟨hr, by simp [hp], exec_frame h⟩))
    · exact .inr (.inr (.inl ⟨hr, by simp [hp], exec_frame h⟩))
    · cases h
      exact .inr (.inr (.inr ⟨hr, r, hp, rfl⟩))

/-- Where a new response comes from: an illegal word, an accepted command, or a SEED_WORDS that has waited. -/
theorem step_response_cases {s t : State} {r : Response} (h : step s = .next t) (ht : t.phase = .responding r)
    (hs : ∀ r', s.phase ≠ .responding r') :
    (∃ c e, s.phase = .accepted c ∧ decode c = .error e ∧ r = errorResponse .illegal) ∨
    (∃ c i, s.phase = .accepted c ∧ decode c = .ok i ∧ exec i s = .next t) ∨
    (∃ w staged, s.phase = .waiting w staged ∧ exec (.seedWords w) s = .next t) := by
  obtain ⟨-, he⟩ | ⟨-, -, he⟩ | ⟨-, -, hcase⟩ := step_cases s
  · rw [he] at h; cases h
    cases ht
  · rw [he] at h; cases h
  · obtain ⟨hp, he⟩ | ⟨c, e, hp, hd, he⟩ | ⟨c, i, hp, hd, he⟩ | ⟨w, staged, hp, he⟩ | ⟨r', hp, -⟩ := hcase
    · rw [he] at h; cases h
      obtain ⟨-, ha⟩ | ⟨c, cs, -, ha⟩ := s.accept_cases
      · exact absurd (ha ▸ ht) (hs r)
      · rw [ha] at ht; cases ht
    · rw [he] at h; cases h
      cases ht
      exact .inl ⟨c, e, hp, hd, rfl⟩
    · exact .inr (.inl ⟨c, i, hp, hd, he ▸ h⟩)
    · exact .inr (.inr ⟨w, staged, hp, he ▸ h⟩)
    · exact absurd hp (hs r')

theorem State.cmdReady_iff (s : State) : s.cmdReady = true ↔ s.rst = false ∧ s.phase = .idle := by
  simp [State.cmdReady]

/-- While CMD_READY is 0 no command is taken from the port (R302). -/
theorem step_cmds_of_not_cmdReady {s t : State} (hb : s.cmdReady = false) (h : step s = .next t) :
    t.cmds = s.cmds := by
  obtain ⟨-, rfl⟩ | ⟨hr, hp, -⟩ | ⟨-, -, -, hc, -⟩ | ⟨-, r, -, rfl⟩ := step_next_cases h
  · simp
  · rw [s.cmdReady_iff.mpr ⟨hr, hp⟩] at hb
    cases hb
  · exact hc
  · simp

/-- A command in flight ends by a reset, or by the host's taking its response (R302). -/
theorem step_to_idle {s t : State} (hp : s.phase ≠ .idle) (h : step s = .next t) (ht : t.phase = .idle) :
    s.rst = true ∨ ∃ r, s.phase = .responding r ∧ s.rspReady = true ∧ t.responses = s.responses ++ [r] := by
  obtain ⟨hr, -⟩ | ⟨-, hi, -⟩ | ⟨-, -, hn, -⟩ | ⟨-, r, hs, rfl⟩ := step_next_cases h
  · exact .inl hr
  · exact absurd hi hp
  · exact absurd ht hn
  · obtain ⟨-, hd⟩ | ⟨hready, hd⟩ := s.deliver_cases r
    · exact absurd (hd ▸ ht) hp
    · exact .inr ⟨r, hs, hready, by rw [hd]⟩

/-- The commands presented, in flight and answered (R305). -/
def State.commandCount (s : State) : Nat :=
  s.responses.length + (if s.phase = .idle then 0 else 1) + s.cmds.length

/-- A step without reset loses no command and makes none. -/
theorem step_commandCount {s t : State} (hr : s.rst = false) (h : step s = .next t) :
    t.commandCount = s.commandCount := by
  obtain ⟨hr', -⟩ | ⟨-, hp, rfl⟩ | ⟨-, hp, hn, hc, hresp⟩ | ⟨-, r, hp, rfl⟩ := step_next_cases h
  · rw [hr] at hr'; cases hr'
  · obtain ⟨-, ha⟩ | ⟨c, cs, hcs, ha⟩ := s.accept_cases
    · rw [ha]
    · rw [ha]
      simp [State.commandCount, hp, hcs]
      omega
  · simp [State.commandCount, hp, hn, hc, hresp]
  · obtain ⟨-, hd⟩ | ⟨-, hd⟩ := s.deliver_cases r
    · rw [hd]
    · rw [hd]
      simp [State.commandCount, hp]

/-- A step only ever appends the pending response to those taken. -/
theorem step_responses {s t : State} (h : step s = .next t) :
    t.responses = s.responses ∨
      ∃ r, s.phase = .responding r ∧ t.phase = .idle ∧ t.responses = s.responses ++ [r] := by
  obtain ⟨-, rfl⟩ | ⟨-, -, rfl⟩ | ⟨-, -, -, -, hresp⟩ | ⟨-, r, hp, rfl⟩ := step_next_cases h
  · exact .inl (by simp)
  · exact .inl (by simp)
  · exact .inl hresp
  · obtain ⟨-, hd⟩ | ⟨-, hd⟩ := s.deliver_cases r
    · exact .inl (by rw [hd])
    · exact .inr ⟨r, hp, by rw [hd], by rw [hd]⟩

/-- A response to an accepted command that decodes is what the command answers. -/
theorem exec_of_step_response {s t : State} {r : Response} {c : Command} {i : Instr} (h : step s = .next t)
    (ht : t.phase = .responding r) (hp : s.phase = .accepted c) (hd : decode c = .ok i) : exec i s = .next t := by
  obtain ⟨c', e, hp', hd', -⟩ | ⟨c', i', hp', hd', he⟩ | ⟨w, staged, hp', -⟩ :=
    step_response_cases h ht (by simp [hp])
  all_goals
    rw [hp] at hp'
    cases hp'
  all_goals
    rw [hd] at hd'
    cases hd'
  exact he

theorem exec_next_response {s t : State} {r : Response} (h : exec .next s = .next t) (ht : t.phase = .responding r) :
    r = ⟨.ok, s.gen.s0 + s.gen.s1, 0⟩ := by
  cases h
  cases ht
  rfl

theorem exec_readState_response {s t : State} {r : Response} (h : exec .readState s = .next t)
    (ht : t.phase = .responding r) : r = ⟨.ok, s.gen.s0, s.gen.s1⟩ := by
  cases h
  cases ht
  rfl

/-- A new response that answers neither NEXT nor READ_STATE carries zero data (R305). -/
theorem step_response_data_zero {s t : State} {r : Response} (h : step s = .next t) (ht : t.phase = .responding r)
    (hs : ∀ r', s.phase ≠ .responding r')
    (hother : ¬ ∃ c, s.phase = .accepted c ∧ (decode c = .ok .next ∨ decode c = .ok .readState)) :
    r.data0 = 0 ∧ r.data1 = 0 := by
  obtain ⟨-, -, -, -, rfl⟩ | ⟨c, i, hp, hd, he⟩ | ⟨w, staged, -, he⟩ := step_response_cases h ht hs
  · exact ⟨rfl, rfl⟩
  · have hn : i ≠ .next := fun hi => hother ⟨c, hp, .inl (hi ▸ hd)⟩
    have hrs : i ≠ .readState := fun hi => hother ⟨c, hp, .inr (hi ▸ hd)⟩
    exact exec_response_data_zero hn hrs he ht
  · exact exec_response_data_zero (i := .seedWords w) (by simp) (by simp) he ht

end Sys2Proof.Machine
end

section
/-! The statements of 30_encoding.md. -/

namespace Sys2Proof.Proofs

open Sys2Proof.Machine

/-- Settles O3: each check has its equation; well-formed means legal; and the failing word's step is
`step_accepted_error`. -/
theorem decodeChecksInOrder : Obligations.DecodeChecksInOrder := by
  refine ⟨fun c => ⟨decode_of_rsv_ne, decode_of_reservedOp, decode_of_wsel_ne, ?_⟩, by decide, ?_⟩
  · exact (decode_ok_iff_wellFormed c).trans c.wellFormed_iff_mem
  · exact fun s c e hr hg hp he => step_accepted_error hr hg hp he

/-- Settles O5, by what decoding reads of a sample and by the independence of an accepted command from the command
port. -/
theorem unusedOperandsIgnored : Obligations.UnusedOperandsIgnored := by
  refine ⟨fun c c' hcmd => ⟨?_, fun hop => ?_, fun hop h0 => ?_⟩, fun s c cs hr hg hp hcs => ?_⟩
  · rw [decode_ok_iff_wellFormed, decode_ok_iff_wellFormed, Command.wellFormed_congr hcmd]
  · exact decode_congr hcmd (fun h => absurd h hop) (fun h => absurd (by simp [h]) hop)
  · exact decode_congr hcmd (fun _ => h0) (fun h => absurd h hop)
  · refine ⟨{ s with phase := .accepted c, cmds := cs }, ?_, rfl, fun later => ?_⟩
    · rw [step_idle hr hg hp, State.accept_cons hcs]
    · exact step_accepted_withCmds (s := { s with phase := .accepted c, cmds := cs }) hr hg rfl later

/-- Settles O8: when CMD_READY is 1 the step is the transfer on the command port, and what a step that goes on has done
gives the rest. -/
theorem busyFromAcceptanceToResponse : Obligations.BusyFromAcceptanceToResponse := by
  refine ⟨State.cmdReady_iff, fun s c cs hg hready hcs => ?_, fun _ _ => step_cmds_of_not_cmdReady,
    fun _ _ => step_to_idle⟩
  obtain ⟨hr, hp⟩ := s.cmdReady_iff.mp hready
  rw [step_idle hr hg hp, State.accept_cons hcs]

/-- Settles O10: the count of commands, the record of responses, and where a new response comes from. -/
theorem oneResponsePerAcceptedCommand : Obligations.OneResponsePerAcceptedCommand := by
  refine ⟨rfl, rfl, rfl, fun e => ?_, fun s t hr h => ⟨step_commandCount hr h, step_responses h⟩,
    fun s t r h ht hs => ⟨?_, ?_, step_response_data_zero h ht hs⟩⟩
  · cases e <;> decide
  · rintro ⟨c, hp, hd⟩
    exact exec_next_response (exec_of_step_response h ht hp hd) ht
  · rintro ⟨c, hp, hd⟩
    exact exec_readState_response (exec_of_step_response h ht hp hd) ht

/-- Settles O1: each of the 12 words is legal and goes to its row of the opcode map; a reserved OP fails the second
check of R311. -/
theorem commandWordsDecodeAsAssigned : Obligations.CommandWordsDecodeAsAssigned := by
  intro a b
  have hreserved : ∀ x : BitVec 4, x = 0x0 ∨ x = 0xA ∨ x = 0xB ∨ x = 0xC ∨ x = 0xD ∨ x = 0xE ∨ x = 0xF →
      x = 0 ∨ 10 ≤ x.toNat := by decide
  refine ⟨?_, ?_, ?_, ?_, ?_, ?_, ?_, ?_, ?_, ?_, ?_, ?_,
    fun c hop => decode_error_of_reservedOp (hreserved c.op hop)⟩
  all_goals
    refine (decode_of_legal ?_ a b).trans ?_
    · decide
    · simp [decodeOp, Command.op, Command.wsel, widthOfWsel]

/-- Settles O2: the table of R308 by evaluation, and the width of a SEED_WORDS that decodes from the opcode map. -/
theorem widthSelectGivesWidthAndCount : Obligations.WidthSelectGivesWidthAndCount :=
  ⟨rfl, rfl, rfl, rfl, rfl, rfl, rfl, rfl, rfl, fun _ _ h => ⟨width_of_decode_seedWords h, rfl⟩⟩

/-- Settles O6: NOP is DISCARD 0, whose loop of no steps leaves the state (R520). -/
theorem pseudoCommandsExpand : Obligations.PseudoCommandsExpand := by
  refine ⟨rfl, fun _ _ _ _ => rfl, fun _ _ => rfl, fun _ => rfl, rfl, fun p => ?_, exec_discard_zero⟩
  cases p <;> rfl

end Sys2Proof.Proofs
end

section
/-! SUPPORT. The seed expander and the validator, word by word (R402, R404). -/

namespace Sys2Proof

/-- The premise of R10, as the statements write it. -/
theorem Config.wellFormed_iff (cfg : Config) :
    cfg.wellFormed = true ↔ cfg.seedExpand cfg.defaultSeed ≠ (0, 0) := by
  simp [Config.wellFormed, Prod.ext_iff, imp_iff_not_or]

namespace Machine

theorem expand_eq_degenerate_iff {cfg : Config} {v : Word} :
    expand cfg v = GenState.degenerate ↔ cfg.seedExpand v = (0, 0) := by
  simp [expand, GenState.degenerate, Prod.ext_iff]

/-- A configuration that breaks the premise of R10 is refused. -/
theorem stepWith_of_not_wellFormed {cfg : Config} (h : ¬ cfg.wellFormed = true) (s : State) :
    stepWith cfg s = .refused .configurationRefused := if_neg h

/-- SEED_U64 completes in every state, and writes a state that depends on the seed alone. -/
theorem execWith_seedU64 (cfg : Config) (v : Word) (s : State) :
    execWith cfg (.seedU64 v) s = .next (s.seedWith cfg (expand cfg v)) := rfl

end Machine

end Sys2Proof
end

section
/-! SUPPORT. What `takeWords` reads of the words presented: their low W bits (R422). -/

namespace Sys2Proof.Machine

/-- The seed words are cut equal when the words agree on their low W bits. -/
theorem map_seedWord_congr {w : WordWidth} {ds ds' : List Word}
    (h : ds.map (fun d => d.toNat % 2 ^ w.bits) = ds'.map (fun d => d.toNat % 2 ^ w.bits)) :
    ds.map (seedWord w) = ds'.map (seedWord w) := by
  have hcut : seedWord w = BitVec.ofNat 64 ∘ fun d => d.toNat % 2 ^ w.bits := rfl
  simp only [hcut, ← List.map_map, h]

/-- Words that are cut equal, no more of them than are needed, are taken with the same outcome. -/
theorem takeWords_congr {w : WordWidth} {ds ds' : List Word} (h : ds.map (seedWord w) = ds'.map (seedWord w))
    {need : Nat} (hneed : ds.length ≤ need) (rest : List WordTransfer) :
    takeWords w need (ds.map .word ++ rest) = takeWords w need (ds'.map .word ++ rest) := by
  induction ds generalizing ds' need with
  | nil =>
    obtain rfl : ds' = [] := by simpa using h.symm
    rfl
  | cons d ds ih =>
    obtain ⟨d', ds', rfl, hd, hds⟩ := List.map_eq_cons_iff.mp h.symm
    obtain ⟨n, rfl⟩ : ∃ n, need = n + 1 := ⟨need - 1, by rw [List.length_cons] at hneed; omega⟩
    simp only [List.map_cons, List.cons_append, takeWords, hd, ih hds.symm (by simpa using hneed)]

/-- SEED_WORDS depends on the word port only through what `takeWords` answers. -/
theorem runSeedWords_congr_words {cfg : Config} {w : WordWidth} {s : State} {xs ys : List WordTransfer}
    (h : takeWords w (w.count - (s.stagedFor w).length) xs = takeWords w (w.count - (s.stagedFor w).length) ys) :
    runSeedWords cfg w { s with words := xs } = runSeedWords cfg w { s with words := ys } := by
  have hstaged : ∀ zs, State.stagedFor { s with words := zs } w = s.stagedFor w := fun _ => rfl
  simp only [runSeedWords, hstaged, h]

end Sys2Proof.Machine
end

section
/-! SUPPORT. Packing as arithmetic (R421): the words are the digits of S1:S0 in base 2^W, the least significant first.
And the ORs of shifted words are the same digits. -/

namespace Sys2Proof

theorem WordWidth.bits_ne_zero (w : WordWidth) : w.bits ≠ 0 := by cases w <;> decide

namespace Machine

/-- The number whose digits in base 2^W are the words, first word least significant. -/
def wordsValue (W : Nat) (ws : List Word) : Nat := Nat.ofDigits (2 ^ W) (ws.map BitVec.toNat)

@[simp] theorem wordsValue_nil (W : Nat) : wordsValue W [] = 0 := rfl

theorem wordsValue_cons (W : Nat) (w : Word) (ws : List Word) :
    wordsValue W (w :: ws) = w.toNat + 2 ^ W * wordsValue W ws := Nat.ofDigits_cons

theorem wordsValue_append (W : Nat) (ws vs : List Word) :
    wordsValue W (ws ++ vs) = wordsValue W ws + 2 ^ (ws.length * W) * wordsValue W vs := by
  simp [wordsValue, Nat.ofDigits_append, ← pow_mul, mul_comm W]

theorem wordsValue_lt {W : Nat} (hW : W ≠ 0) {ws : List Word} (h : ∀ x ∈ ws, x.toNat < 2 ^ W) :
    wordsValue W ws < 2 ^ (ws.length * W) := by
  have hlt := Nat.ofDigits_lt_base_pow_length (Nat.one_lt_two_pow hW) (List.forall_mem_map.mpr h)
  rwa [List.length_map, ← pow_mul, mul_comm] at hlt

/-- The value as R421 writes it: the sum of `w[i] * 2^(i*W)`. -/
theorem wordsValue_eq_sum (W : Nat) (ws : List Word) :
    wordsValue W ws = ((List.range ws.length).map (fun i => (ws.getD i 0).toNat * 2 ^ (i * W))).sum := by
  rw [wordsValue, Nat.ofDigits_eq_sum_mapIdx]
  refine congrArg List.sum (List.ext_getElem (by simp) fun i hi _ => ?_)
  have hi' : i < ws.length := by simpa using hi
  simp [hi', ← pow_mul, mul_comm W]

/-- The 128-bit sum is the value of the words, moved up by i places, modulo 2^128. -/
theorem packFrom_toNat (W i : Nat) (ws : List Word) :
    (packFrom W i ws).toNat = 2 ^ (i * W) * wordsValue W ws % 2 ^ 128 := by
  induction ws generalizing i with
  | nil => simp [packFrom]
  | cons w ws ih =>
    have hval : 2 ^ (i * W) * wordsValue W (w :: ws) =
        w.toNat * 2 ^ (i * W) + 2 ^ ((i + 1) * W) * wordsValue W ws := by
      rw [wordsValue_cons, Nat.add_one_mul, pow_add]
      ring
    simp [packFrom, ih, hval, Nat.shiftLeft_eq]

/-- Packing k words of W bits loses nothing: S1:S0 is their value. -/
theorem pack_toNat {w : WordWidth} {ws : List Word} (hlen : ws.length = w.count) (h : ∀ x ∈ ws, x.toNat < 2 ^ w.bits) :
    (pack w ws).s0.toNat + 2 ^ 64 * (pack w ws).s1.toNat = wordsValue w.bits ws := by
  have hlt := wordsValue_lt w.bits_ne_zero h
  rw [hlen, w.count_mul_bits] at hlt
  have hv : (packFrom w.bits 0 ws).toNat = wordsValue w.bits ws := by
    rw [packFrom_toNat, Nat.zero_mul, pow_zero, Nat.one_mul, Nat.mod_eq_of_lt hlt]
  simp only [pack, BitVec.extractLsb'_toNat, hv, Nat.shiftRight_eq_div_pow]
  omega

/-- `acc | (w0 << (i*W)) | (w1 << ((i+1)*W)) | ...`: the ORs that R421 writes out, from the word with index i on. -/
def orShifted (W : Nat) : Nat → Word → List Word → Word
  | _, acc, [] => acc
  | i, acc, w :: ws => orShifted W (i + 1) (acc ||| w <<< (i * W)) ws

/-- A word that fits is moved above a shorter one: the OR is their sum. -/
theorem toNat_or_shiftLeft {acc w : Word} {k W : Nat} (hacc : acc.toNat < 2 ^ k) (hw : w.toNat < 2 ^ W)
    (hfit : k + W ≤ 64) : (acc ||| w <<< k).toNat = acc.toNat + 2 ^ k * w.toNat := by
  have hshift : w.toNat <<< k < 2 ^ 64 :=
    calc w.toNat <<< k = 2 ^ k * w.toNat := by rw [Nat.shiftLeft_eq, mul_comm]
      _ < 2 ^ k * 2 ^ W := Nat.mul_lt_mul_of_pos_left hw (Nat.two_pow_pos k)
      _ = 2 ^ (k + W) := (pow_add 2 k W).symm
      _ ≤ 2 ^ 64 := Nat.pow_le_pow_right two_pos hfit
  rw [BitVec.toNat_or, BitVec.toNat_shiftLeft, Nat.mod_eq_of_lt hshift, Nat.or_comm,
    ← Nat.shiftLeft_add_eq_or_of_lt hacc, Nat.shiftLeft_eq]
  ring

theorem orShifted_toNat {W i : Nat} {acc : Word} {ws : List Word} (hacc : acc.toNat < 2 ^ (i * W))
    (h : ∀ x ∈ ws, x.toNat < 2 ^ W) (hfit : (i + ws.length) * W ≤ 64) :
    (orShifted W i acc ws).toNat = acc.toNat + 2 ^ (i * W) * wordsValue W ws := by
  induction ws generalizing i acc with
  | nil => simp [orShifted]
  | cons w ws ih =>
    obtain ⟨hw, hws⟩ := List.forall_mem_cons.mp h
    have hfit' : (i + 1 + ws.length) * W ≤ 64 := by
      rw [List.length_cons] at hfit
      rwa [show i + 1 + ws.length = i + (ws.length + 1) by omega]
    have hroom : i * W + W ≤ 64 := by
      calc i * W + W = (i + 1) * W := (Nat.add_one_mul i W).symm
        _ ≤ (i + 1 + ws.length) * W := Nat.mul_le_mul_right W (Nat.le_add_right _ _)
        _ ≤ 64 := hfit'
    have hor := toNat_or_shiftLeft hacc hw hroom
    have hacc' : (acc ||| w <<< (i * W)).toNat < 2 ^ ((i + 1) * W) :=
      calc (acc ||| w <<< (i * W)).toNat = acc.toNat + 2 ^ (i * W) * w.toNat := hor
        _ < 2 ^ (i * W) * (w.toNat + 1) := by rw [Nat.mul_add_one]; omega
        _ ≤ 2 ^ (i * W) * 2 ^ W := Nat.mul_le_mul_left _ hw
        _ = 2 ^ ((i + 1) * W) := by rw [← pow_add, Nat.add_one_mul]
    rw [orShifted, ih hacc' hws hfit', hor, wordsValue_cons, Nat.add_one_mul, pow_add]
    ring

/-- The ORs of a full word's worth of seed words have the value of those words. -/
theorem orShifted_one_toNat {W : Nat} {a : Word} {as : List Word} (h : ∀ x ∈ a :: as, x.toNat < 2 ^ W)
    (hfit : (a :: as).length * W = 64) : (orShifted W 1 a as).toNat = wordsValue W (a :: as) := by
  obtain ⟨ha, has⟩ := List.forall_mem_cons.mp h
  rw [List.length_cons, Nat.add_comm] at hfit
  rw [orShifted_toNat (by rwa [Nat.one_mul]) has hfit.le, wordsValue_cons, Nat.one_mul]

/-- S0 is the OR of the first half of the words, S1 of the second half (R421). -/
theorem pack_eq_orShifted (w : WordWidth) (a b : Word) (as bs : List Word)
    (h : ∀ x ∈ a :: as ++ b :: bs, x.toNat < 2 ^ w.bits)
    (ha : (a :: as).length * w.bits = 64) (hb : (b :: bs).length * w.bits = 64) :
    pack w (a :: as ++ b :: bs) = ⟨orShifted w.bits 1 a as, orShifted w.bits 1 b bs⟩ := by
  obtain ⟨hlo, hhi⟩ := List.forall_mem_append.mp h
  have hlen : (a :: as ++ b :: bs).length = w.count := by
    apply Nat.eq_of_mul_eq_mul_right (Nat.pos_of_ne_zero w.bits_ne_zero)
    rw [List.length_append, Nat.add_mul, ha, hb, w.count_mul_bits]
  have hsum := pack_toNat hlen h
  rw [wordsValue_append, ha, ← orShifted_one_toNat hlo ha, ← orShifted_one_toNat hhi hb] at hsum
  refine GenState.ext_words (BitVec.eq_of_toNat_eq ?_) (BitVec.eq_of_toNat_eq ?_)
  all_goals
    dsimp only
    omega

end Machine

end Sys2Proof
end

section
/-! The statements of 40_seeding.md on packing, seed words, the validator and the seed expander. -/

namespace Sys2Proof.Proofs

open Sys2Proof.Machine

/-- Settles O22: the words are the digits of S1:S0 in base 2^W, and the written-out ORs have the same digits. -/
theorem packIsLittleEndian : Obligations.PackIsLittleEndian := by
  refine ⟨fun w ws hlen h => ?_, fun a b => ?_, ?_, ?_, ?_⟩
  · rw [pack_toNat hlen h, wordsValue_eq_sum, hlen]
  · exact pack_eq_orShifted .w64 a b [] [] (fun x _ => x.isLt) rfl rfl
  · exact fun w0 w1 w2 w3 h => pack_eq_orShifted .w32 w0 w2 [w1] [w3] h rfl rfl
  · exact fun w0 w1 w2 w3 w4 w5 w6 w7 h => pack_eq_orShifted .w16 w0 w4 [w1, w2, w3] [w5, w6, w7] h rfl rfl
  · exact fun w0 w1 w2 w3 w4 w5 w6 w7 w8 w9 wa wb wc wd we wf h =>
      pack_eq_orShifted .w8 w0 w8 [w1, w2, w3, w4, w5, w6, w7] [w9, wa, wb, wc, wd, we, wf] h rfl rfl

/-- Settles O26: words that agree on their low W bits are cut to the same seed words, and SEED_WORDS reads no more. -/
theorem seedWordHighBitsIgnored : Obligations.SeedWordHighBitsIgnored := by
  refine ⟨WordWidth.count_mul_bits, fun w s ds ds' rest hlen ⟨c, hp⟩ h => ?_⟩
  have hstaged : ds.length ≤ w.count - (s.stagedFor w).length := by
    rwa [State.stagedFor_accepted hp]
  exact runSeedWords_congr_words (takeWords_congr (map_seedWord_congr h) hstaged rest)

/-- Settles O15: the case split of the validator, and the premise of R10, which `stepWith` checks. -/
theorem validateReseedsOnlyDegenerate : Obligations.ValidateReseedsOnlyDegenerate := by
  refine fun cfg => ⟨fun a b => ?_, fun s h => ?_, fun h g => ?_⟩
  · simp only [validate, GenState.degenerate, GenState.mk.injEq]
    rfl
  · exact stepWith_of_not_wellFormed (fun hwf => cfg.wellFormed_iff.mp hwf h) s
  · exact validate_ne (cfg.wellFormed_iff.mpr h) g

/-- Settles O19: SEED_U64 writes the validated expansion of the seed, whatever the state was. -/
theorem sameSeedSameSequence : Obligations.SameSeedSameSequence := by
  refine fun cfg v => ⟨fun s h => ⟨_, execWith_seedU64 cfg v s, ?_⟩,
    fun s s' => ⟨_, _, execWith_seedU64 cfg v s, execWith_seedU64 cfg v s', rfl, fun _ => rfl⟩⟩
  rw [State.seedWith_gen, validate_of_ne (mt expand_eq_degenerate_iff.mp h)]
  exact ⟨rfl, rfl⟩

end Sys2Proof.Proofs
end

section
/-! SUPPORT. The generating commands as equations of `exec`, the rotation as the library's, and NEXT repeated
(R500, R520, R521). -/

namespace Sys2Proof.Machine

theorem rotl_eq_rotateLeft (a : Word) {k : Nat} (hk : k < 64) : rotl a k = a.rotateLeft k := by
  rw [BitVec.rotateLeft_def, Nat.mod_eq_of_lt hk, rotl]

/-- R500: the document's generation step. -/
theorem genStep_eq_rotateLeft (s0 s1 : Word) : genStep ⟨s0, s1⟩ =
    (s0 + s1, ⟨s0.rotateLeft 55 ^^^ (s1 ^^^ s0) ^^^ ((s1 ^^^ s0) <<< 14), (s1 ^^^ s0).rotateLeft 36⟩) := by
  rw [← rotl_eq_rotateLeft s0 (by decide), ← rotl_eq_rotateLeft (s1 ^^^ s0) (by decide)]
  rfl

/-- NEXT completes with the result of one Step (R510). -/
theorem exec_next (s : State) :
    exec .next s = .next (s.complete (genNext s.gen) ⟨.ok, genResult s.gen, 0⟩) := rfl

/-- DISCARD takes as many Steps as its operand says (R520). -/
theorem exec_discard (n : Word) (s : State) :
    exec (.discard n) s = .next (s.complete (genAdvance n.toNat s.gen) okResponse) := rfl

/-- The state after NEXT, as R521 repeats it. -/
def State.afterNext (s : State) : State :=
  match exec .next s with
  | .next t => t
  | _ => s

@[simp] theorem State.afterNext_gen (s : State) : s.afterNext.gen = genNext s.gen := by
  rw [State.afterNext, exec_next]
  rfl

/-- Repeating NEXT repeats Step: reading S0 and S1 turns the one into the other. -/
theorem State.afterNext_iterate_gen (n : Nat) (s : State) : (State.afterNext^[n] s).gen = genAdvance n s.gen :=
  Function.Semiconj.iterate_right (f := State.gen) State.afterNext_gen n s

end Sys2Proof.Machine
end

section
/-! The statements of 41_generation.md on the step as transcribed and on DISCARD. -/

namespace Sys2Proof.Proofs

open Sys2Proof.Machine

/-- Settles O34: DISCARD n advances S0 and S1 by n Steps, and so do n NEXT commands. -/
theorem discardEqualsRepeatedNext : Obligations.DiscardEqualsRepeatedNext := by
  intro n s
  change _ = Host.Outcome.next (s.complete (State.afterNext^[n.toNat] s).gen okResponse)
  rw [exec_discard, State.afterNext_iterate_gen]

/-- Settles O28: the rotations are the library's, and the state and the response of NEXT are functions of S0 and S1. -/
theorem stepAsTranscribed : Obligations.StepAsTranscribed := by
  refine ⟨genStep_eq_rotateLeft, fun s s' h => ⟨_, _, _, exec_next s, exec_next s', ?_, rfl, ?_⟩⟩
  · exact congrArg genNext h
  · rw [h]
    rfl

end Sys2Proof.Proofs
end

section
/-! SUPPORT. What a command reads of the machine: S0 and S1, the words presented and the words staged (R714). The
responses taken in the past are not among them, so they influence no run. -/

namespace Sys2Proof.Machine

/-- READ_STATE answers with S0 and S1 (R701). -/
theorem exec_readState (s : State) :
    exec .readState s = .next (s.respond ⟨.ok, s.gen.s0, s.gen.s1⟩) := rfl

/-- The answers of READ_STATE tell two states apart exactly when S0 or S1 differ. -/
theorem readState_responding_eq_iff (g g' : GenState) :
    Phase.responding ⟨.ok, g.s0, g.s1⟩ = .responding ⟨.ok, g'.s0, g'.s1⟩ ↔ g = g' := by
  constructor
  · intro h
    injection h with hr
    injection hr with _ h0 h1
    exact GenState.ext_words h0 h1
  · rintro rfl
    rfl

/-- The state with S0 and S1, the command in flight and the word port of another: what a command may write. -/
def State.withResultOf (s t : State) : State := { s with gen := t.gen, phase := t.phase, words := t.words }

/-- A command reads S0 and S1, the words presented and the words staged, and nothing else. -/
theorem exec_congr {s s' : State} (hgen : s.gen = s'.gen) (hwords : s.words = s'.words)
    (hstaged : ∀ w, s.stagedFor w = s'.stagedFor w) (i : Instr) :
    exec i s' = Out.mapNext s'.withResultOf (exec i s) := by
  cases s
  cases s'
  cases hgen
  cases hwords
  cases i with
  | seedWords w =>
    change runSeedWords Config.standard w _ = Out.mapNext _ (runSeedWords Config.standard w _)
    simp only [runSeedWords, hstaged]
    split <;> rfl
  | _ => rfl

/-- The same machine with earlier responses put before those taken. -/
def State.withPast (s : State) (h : List Response) : State := { s with responses := h ++ s.responses }

theorem exec_withPast (i : Instr) (s : State) (h : List Response) :
    exec i (s.withPast h) = Out.mapNext (State.withPast · h) (exec i s) := by
  rw [exec_congr (s := s) (s' := s.withPast h) rfl rfl (fun _ => rfl), exec_eq_execWith]
  obtain ⟨g, d0, d1, xs, he, -⟩ | ⟨w, xs, -, he⟩ | ⟨w, ds, -, -, -, he⟩ := execWith_cases Config.standard i s
  all_goals
    rw [he]
    rfl

theorem runAccepted_withPast (c : Command) (s : State) (h : List Response) :
    runAccepted exec c (s.withPast h) = Out.mapNext (State.withPast · h) (runAccepted exec c s) := by
  cases hd : decode c with
  | error e =>
    simp only [runAccepted_error hd]
    rfl
  | ok i => simp only [runAccepted_ok hd, exec_withPast]

theorem State.accept_withPast (s : State) (h : List Response) : (s.withPast h).accept = s.accept.withPast h := by
  obtain ⟨hc, ha⟩ | ⟨c, cs, hc, ha⟩ := s.accept_cases
  · rw [ha, State.accept_nil (s := s.withPast h) hc]
  · rw [ha, State.accept_cons (s := s.withPast h) hc]
    rfl

/-- The response taken goes behind the past. -/
theorem State.deliver_withPast (s : State) (r : Response) (h : List Response) :
    (s.withPast h).deliver r = (s.deliver r).withPast h := by
  obtain ⟨hready, hd⟩ | ⟨hready, hd⟩ := s.deliver_cases r
  · rw [hd, State.deliver_held (s := s.withPast h) hready]
  · rw [hd, State.deliver_taken (s := s.withPast h) hready]
    simp [State.withPast]

theorem step_withPast (s : State) (h : List Response) :
    step (s.withPast h) = Out.mapNext (State.withPast · h) (step s) := by
  have hrst : (s.withPast h).rst = s.rst := rfl
  have hgen : (s.withPast h).gen = s.gen := rfl
  have hphase : (s.withPast h).phase = s.phase := rfl
  simp only [step, lifecycle, hrst, hgen, hphase]
  split
  · rfl
  split
  · rfl
  cases s.phase with
  | idle => exact congrArg Host.Outcome.next (s.accept_withPast h)
  | accepted c => exact runAccepted_withPast c s h
  | waiting w staged => exact exec_withPast (.seedWords w) s h
  | responding r => exact congrArg Host.Outcome.next (s.deliver_withPast r h)

theorem Event.run_withPast (e : Event) (s : State) (h : List Response) :
    e.run (s.withPast h) = Out.mapNext (State.withPast · h) (e.run s) := by
  cases e with
  | env a => cases a <;> rfl
  | block => exact step_withPast s h

theorem runEvents_withPast (es : List Event) (s : State) (h : List Response) :
    runEvents es (s.withPast h) = Out.mapNext (State.withPast · h) (runEvents es s) := by
  induction es generalizing s with
  | nil => rfl
  | cons e es ih =>
    simp only [runEvents, Event.run_withPast]
    cases e.run s with
    | next t => exact ih t
    | fault _ => rfl
    | refused _ => rfl

end Sys2Proof.Machine
end

section
/-! The statement of 43_state_access.md on equal states. -/

namespace Sys2Proof.Proofs

open Sys2Proof.Machine

/-- Settles O47: READ_STATE shows S0 and S1, a command reads no more than these and its words, and the responses taken
go through a run untouched. -/
theorem equalStatesStayEqual : Obligations.EqualStatesStayEqual := by
  refine ⟨fun s s' t t' h h' => ?_, fun i s s' t hgen hwords hstaged h => ?_, fun es s t past h => ?_⟩
  · rw [exec_readState] at h h'
    cases h
    cases h'
    exact readState_responding_eq_iff s.gen s'.gen
  · refine ⟨s'.withResultOf t, ?_, rfl, rfl, rfl⟩
    rw [exec_congr hgen hwords hstaged i, h]
    rfl
  · change runEvents es (s.withPast past) = .next (t.withPast past)
    rw [runEvents_withPast, h]
    rfl

end Sys2Proof.Proofs
end

section
/-! SUPPORT. Which words are illegal, read off the checks of R311 (R801). -/

namespace Sys2Proof

/-- A word decodes to nothing exactly when it fails one of the checks. -/
theorem not_decode_ok_iff (c : Command) : (¬ ∃ i, decode c = .ok i) ↔
    (c.rsv ≠ 0 ∨ c.op = 0 ∨ 10 ≤ c.op.toNat ∨ (c.wsel ≠ 0 ∧ c.op ≠ 3)) := by
  rw [decode_ok_iff_wellFormed, c.wellFormed_iff]
  tauto

/-- Decoding is total: a sample that is no command is rejected by name. -/
theorem decode_error_of_not_ok {c : Command} (h : ¬ ∃ i, decode c = .ok i) : ∃ e, decode c = .error e :=
  decode_of_not_wellFormed fun hwf => h ((decode_ok_iff_wellFormed c).mpr hwf)

end Sys2Proof
end

section
/-! SUPPORT. The way from a pending response to the next command: the host takes the response, and the block, idle again,
accepts what stands on the command port (R301, R802). -/

namespace Sys2Proof.Machine

theorem step_responding {s : State} {r : Response} (hr : s.rst = false) (hg : s.gen ≠ GenState.degenerate)
    (hp : s.phase = .responding r) : step s = .next (s.deliver r) := by
  simp [step, lifecycle, hr, hg, hp]

/-- An idle block takes the command presented (R301). -/
theorem step_accepts {s : State} {c : Command} {cs : List Command} (hr : s.rst = false)
    (hg : s.gen ≠ GenState.degenerate) (hp : s.phase = .idle) (hcmds : s.cmds = c :: cs) :
    step s = .next { s with phase := .accepted c, cmds := cs } := by
  rw [step_idle hr hg hp, State.accept_cons hcmds]

theorem runEvents_block {s t : State} (h : step s = .next t) (es : List Event) :
    runEvents (.block :: es) s = runEvents es t := by
  simp only [runEvents, Event.run, h]

/-- With the host ready and a command presented, two steps hand over the response and accept the command. -/
theorem runEvents_deliver_accept {s : State} {r : Response} {d : Command} {ds : List Command} (hr : s.rst = false)
    (hg : s.gen ≠ GenState.degenerate) (hp : s.phase = .responding r) (hready : s.rspReady = true)
    (hcmds : s.cmds = d :: ds) :
    runEvents [.block, .block] s =
      .next { s with phase := .accepted d, cmds := ds, responses := s.responses ++ [r] } := by
  have hdeliver : step s = .next { s with phase := .idle, responses := s.responses ++ [r] } := by
    rw [step_responding hr hg hp, State.deliver_taken hready]
  have haccept : step { s with phase := .idle, responses := s.responses ++ [r] } =
      .next { s with phase := .accepted d, cmds := ds, responses := s.responses ++ [r] } :=
    step_accepts hr hg rfl hcmds
  rw [runEvents_block hdeliver, runEvents_block haccept, runEvents]

end Sys2Proof.Machine
end

section
/-! SUPPORT. How the commands end (R804), from what a command can do. -/

namespace Sys2Proof.Machine

/-- A command other than SEED_WORDS responds OK, and writes at most S0 and S1. -/
theorem exec_responds_ok {i : Instr} (hi : ∀ w, i ≠ .seedWords w) (s : State) :
    ∃ g d0 d1, exec i s = .next { s with gen := g, phase := .responding ⟨.ok, d0, d1⟩ } := by
  rw [exec_eq_execWith]
  obtain ⟨g, d0, d1, xs, he, hxs⟩ | ⟨w, -, hw, -⟩ | ⟨w, -, hw, -⟩ := execWith_cases Config.standard i s
  · obtain rfl := hxs hi
    exact ⟨g, d0, d1, he⟩
  · exact absurd hw (hi w)
  · exact absurd hw (hi w)

/-- The one error a command can end with is SRC_ERR, and SEED_WORDS alone ends with it. -/
theorem exec_response_status {i : Instr} {s t : State} {r : Response} (h : exec i s = .next t)
    (ht : t.phase = .responding r) : r.status = .ok ∨ (r.status = .srcErr ∧ ∃ w, i = .seedWords w) := by
  rw [exec_eq_execWith] at h
  obtain ⟨g, d0, d1, xs, he, -⟩ | ⟨w, xs, hw, he⟩ | ⟨w, ds, -, -, -, he⟩ := execWith_cases Config.standard i s
  all_goals
    rw [he] at h
    cases h
    cases ht
  · exact .inl rfl
  · exact .inr ⟨rfl, w, hw⟩

end Sys2Proof.Machine
end

section
/-! The statements of 60_exceptions.md. -/

namespace Sys2Proof.Proofs

open Sys2Proof.Machine

/-- The words that are not among the 12 legal ones: 256 - 12 (R801). -/
theorem illegalWords_length :
    ((List.range 256).filter (fun n => !(decode ⟨BitVec.ofNat 8 n, 0, 0⟩).toBool)).length = 244 := by
  obtain ⟨-, hlegal, -⟩ := decodeChecksInOrder
  have hsplit := (List.range 256).length_eq_length_filter_add (fun n => (decode ⟨BitVec.ofNat 8 n, 0, 0⟩).toBool)
  rw [hlegal, List.length_range] at hsplit
  omega

/-- Settles O11: illegal means failing a check of R311; the failing word's step only presents ILLEGAL, and from there the
response is delivered and the next command accepted like after any other. -/
theorem illegalCommandOnlyResponds : Obligations.IllegalCommandOnlyResponds := by
  refine ⟨not_decode_ok_iff, illegalWords_length, fun s c hr hg hp hc => ?_⟩
  obtain ⟨e, he⟩ := decode_error_of_not_ok hc
  have hstep := step_accepted_error hr hg hp he
  refine ⟨hstep, fun hready d ds hcmds => ?_⟩
  rw [runEvents_block hstep]
  exact runEvents_deliver_accept hr hg rfl hready hcmds

/-- Settles O12, by the ways a command can end. -/
theorem otherCommandsAlwaysRespondOk : Obligations.OtherCommandsAlwaysRespondOk :=
  ⟨fun _ s hi => exec_responds_ok hi s, fun _ _ _ _ => exec_response_status⟩

end Sys2Proof.Proofs
end

section
/-! SUPPORT. Encoding and decoding undo each other (R306, R310, R313): the fields make up the command word, and each row
of the opcode map has its own. -/

namespace Sys2Proof

/-- RSV, WSEL and OP make up CMD (R306). -/
theorem Command.cmd_eq_fields (c : Command) : c.cmd = c.rsv ++ c.wsel ++ c.op := by
  have hall : ∀ x : BitVec 8, x = x.extractLsb' 6 2 ++ x.extractLsb' 4 2 ++ x.extractLsb' 0 4 := by decide
  exact hall c.cmd

/-- What `encode` writes passes the checks of R311. -/
theorem encode_wellFormed (i : Instr) : (encode i).wellFormed = true := by
  cases i with
  | seedU64 v => exact (Laws.LegalEncoding.seedU64 v).1
  | seedDefault => exact Laws.LegalEncoding.seedDefault.1
  | seedWords w => exact (Laws.LegalEncoding.seedWords w).1
  | loadState a b => exact (Laws.LegalEncoding.loadState a b).1
  | next => exact Laws.LegalEncoding.next.1
  | discard n => exact (Laws.LegalEncoding.discard n).1
  | jump => exact Laws.LegalEncoding.jump.1
  | jumpn n => exact (Laws.LegalEncoding.jumpn n).1
  | readState => exact Laws.LegalEncoding.readState.1

/-- Decoding what `encode` writes gives the command back: its word has the OP of its row, and its operands stand where
the row reads them. -/
theorem decode_encode (i : Instr) : decode (encode i) = .ok i := by
  rw [decode_of_wellFormed (encode_wellFormed i)]
  cases i with
  | seedWords w => cases w <;> rfl
  | _ => rfl

/-- The command word of what a sample decodes to is the sample's: OP is the row's, and RSV and, outside SEED_WORDS, WSEL
are zero. -/
theorem commandWord_of_decode {c : Command} {i : Instr} (h : decode c = .ok i) : commandWord i = c.cmd := by
  obtain ⟨hrsv, -, hwsel⟩ := c.wellFormed_iff.mp ((decode_ok_iff_wellFormed c).mp ⟨i, h⟩)
  have hop : ∀ {k : Nat}, c.op.toNat = k → c.op = BitVec.ofNat 4 k := by
    rintro _ rfl
    simp
  have hrow := decodeOp_of_decode h
  rw [c.cmd_eq_fields, hrsv]
  unfold decodeOp at hrow
  split at hrow
  case h_3 h3 =>
    cases hrow
    simp [commandWord, hop h3]
  all_goals
    rename_i hk
    cases hrow
  all_goals
    rw [hop hk] at hwsel ⊢
    rw [hwsel.resolve_left (by decide)]
    rfl

/-- ARG0 is encoded as sampled by the four commands that use it, and as 0 by the others (R307, R313). -/
theorem encode_arg0_of_decode {c : Command} {i : Instr} (h : decode c = .ok i) :
    (encode i).arg0 = c.arg0 ∨ (encode i).arg0 = 0 ∧ c.op.toNat ∉ [1, 4, 6, 8] := by
  have hrow := decodeOp_of_decode h
  unfold decodeOp at hrow
  split at hrow <;> cases hrow <;> simp_all [encode]

/-- ARG1 is encoded as sampled by LOAD_STATE, and as 0 by the others (R307, R313). -/
theorem encode_arg1_of_decode {c : Command} {i : Instr} (h : decode c = .ok i) :
    (encode i).arg1 = c.arg1 ∨ (encode i).arg1 = 0 ∧ c.op.toNat ≠ 4 := by
  have hrow := decodeOp_of_decode h
  unfold decodeOp at hrow
  split at hrow <;> cases hrow <;> simp_all [encode]

theorem encode_cmd (i : Instr) : (encode i).cmd = commandWord i := by cases i <;> rfl

end Sys2Proof
end

section
/-! The statement of 30_encoding.md on decoding and encoding. -/

namespace Sys2Proof.Proofs

/-- Settles O4: a command's encoding decodes to it, and a sample that decodes has the command word of what it decodes to
and the operands its row reads. -/
theorem decodeEncodeRoundTrip : Obligations.DecodeEncodeRoundTrip :=
  ⟨decode_encode,
    fun _ i h => ⟨(encode_cmd i).trans (commandWord_of_decode h), encode_arg0_of_decode h, encode_arg1_of_decode h⟩,
    decode_ok_iff_wellFormed⟩

end Sys2Proof.Proofs
end

section
/-! SUPPORT. The step as a map over GF(2): it is additive, and it is undone by `StepInv` (R503). -/

namespace Sys2Proof.Machine

/-- Rotating by k and then by 64 - k gives the word back. -/
theorem rotl_rotl_of_add {a : Word} {k l : Nat} (h : k + l = 64) (hk : 0 < k) (hl : 0 < l) :
    rotl (rotl a k) l = a := by
  refine BitVec.eq_of_getLsbD_eq fun i hi => ?_
  rw [getLsbD_rotl _ _ _ (by omega) hl hi, getLsbD_rotl _ _ _ (by omega) hk (Nat.mod_lt _ (by decide))]
  congr 1
  omega

theorem word_xor_xor_xor_comm (a b c d : Word) : (a ^^^ b) ^^^ (c ^^^ d) = (a ^^^ c) ^^^ (b ^^^ d) := by
  rw [BitVec.xor_assoc, BitVec.xor_assoc, ← BitVec.xor_assoc b, BitVec.xor_comm b, BitVec.xor_assoc c]

theorem genNext_xor (a b : GenState) : genNext (a.xor b) = (genNext a).xor (genNext b) := by
  have hsum : (a.xor b).s1 ^^^ (a.xor b).s0 = (a.s1 ^^^ a.s0) ^^^ (b.s1 ^^^ b.s0) :=
    word_xor_xor_xor_comm _ _ _ _
  refine GenState.ext_words ?_ ?_
  · rw [genNext_s0, hsum, GenState.xor_s0, GenState.xor_s0, genNext_s0, genNext_s0, rotl_xor,
      BitVec.shiftLeft_xor_distrib, word_xor_xor_xor_comm (rotl a.s0 rotA),
      word_xor_xor_xor_comm (rotl a.s0 rotA ^^^ (a.s1 ^^^ a.s0))]
  · rw [genNext_s1, hsum, GenState.xor_s1, genNext_s1, genNext_s1, rotl_xor]

theorem genNext_additive : Additive genNext := genNext_xor

/-- The new S1, rotated back, is the sum of the old words; the new S0 less the terms of that sum is the old S0,
rotated. -/
theorem genPrev_genNext (g : GenState) : genPrev (genNext g) = g := by
  have hsum : rotl (genNext g).s1 (64 - rotC) = g.s1 ^^^ g.s0 := rotl_rotl_of_add rfl (by decide) (by decide)
  have hrot : (genNext g).s0 ^^^ (g.s1 ^^^ g.s0) ^^^ (g.s1 ^^^ g.s0) <<< shB = rotl g.s0 rotA := by
    rw [genNext_s0, BitVec.xor_assoc _ _ ((g.s1 ^^^ g.s0) <<< shB), BitVec.xor_assoc (rotl g.s0 rotA),
      BitVec.xor_assoc, BitVec.xor_self, BitVec.xor_zero]
  have hback : rotl (rotl g.s0 rotA) (64 - rotA) = g.s0 := rotl_rotl_of_add rfl (by decide) (by decide)
  simp only [genPrev, hsum, hrot, hback]
  refine GenState.ext_words rfl ?_
  dsimp only
  rw [BitVec.xor_assoc, BitVec.xor_self, BitVec.xor_zero]

/-- The words of `StepInv` sum to the old S1, rotated back, so the step of them takes up where it started. -/
theorem genNext_genPrev (g : GenState) : genNext (genPrev g) = g := by
  have hsum : (genPrev g).s1 ^^^ (genPrev g).s0 = rotl g.s1 (64 - rotC) := by
    simp only [genPrev]
    rw [BitVec.xor_assoc, BitVec.xor_self, BitVec.xor_zero]
  refine GenState.ext_words ?_ ?_
  · rw [genNext_s0, hsum, genPrev, rotl_rotl_of_add rfl (by decide) (by decide)]
    rw [BitVec.xor_assoc _ _ (rotl g.s1 (64 - rotC) <<< shB), BitVec.xor_assoc g.s0,
      BitVec.xor_assoc, BitVec.xor_self, BitVec.xor_zero]
  · rw [genNext_s1, hsum]
    exact rotl_rotl_of_add rfl (by decide) (by decide)

theorem genNext_bijective : Function.Bijective genNext :=
  Function.bijective_iff_has_inverse.mpr ⟨genPrev, genPrev_genNext, genNext_genPrev⟩

theorem genNext_eq_degenerate_iff (g : GenState) : genNext g = GenState.degenerate ↔ g = GenState.degenerate := by
  rw [← genNext_degenerate, genNext_bijective.injective.eq_iff, genNext_degenerate]

/-- R501, bit i of the new S0. -/
theorem getLsbD_genNext_s0 (g : GenState) {i : Nat} (hi : i < 64) : (genNext g).s0.getLsbD i =
    ((g.s0.getLsbD ((i + 64 - 55) % 64) ^^ (g.s0.getLsbD i ^^ g.s1.getLsbD i)) ^^
      (if 14 ≤ i then g.s0.getLsbD (i - 14) ^^ g.s1.getLsbD (i - 14) else false)) := by
  rw [genNext_s0, BitVec.getLsbD_xor, BitVec.getLsbD_xor, getLsbD_rotl _ _ _ (by decide) (by decide) hi,
    BitVec.getLsbD_xor, BitVec.getLsbD_shiftLeft, BitVec.getLsbD_xor]
  have hrot : i + (64 - rotA) = i + 64 - 55 := (Nat.add_sub_assoc (by decide) i).symm
  rw [hrot, Bool.xor_comm (g.s1.getLsbD i), Bool.xor_comm (g.s1.getLsbD (i - shB))]
  by_cases h14 : 14 ≤ i
  · simp [shB, h14, hi, Nat.not_lt.mpr h14]
  · simp [shB, h14, Nat.lt_of_not_le h14]

/-- R501, bit i of the new S1. -/
theorem getLsbD_genNext_s1 (g : GenState) {i : Nat} (hi : i < 64) : (genNext g).s1.getLsbD i =
    (g.s0.getLsbD ((i + 64 - 36) % 64) ^^ g.s1.getLsbD ((i + 64 - 36) % 64)) := by
  have hrot : i + (64 - rotC) = i + 64 - 36 := (Nat.add_sub_assoc (by decide) i).symm
  rw [genNext_s1, getLsbD_rotl _ _ _ (by decide) (by decide) hi, BitVec.getLsbD_xor, Bool.xor_comm, hrot]

/-- R504: the step as a 2 by 2 matrix of blocks. -/
theorem genNext_blocks (s0 s1 : Word) : genNext ⟨s0, s1⟩ =
    ⟨(s0.rotateLeft 55 ^^^ s0 ^^^ s0 <<< 14) ^^^ (s1 ^^^ s1 <<< 14), s0.rotateLeft 36 ^^^ s1.rotateLeft 36⟩ := by
  rw [← rotl_eq_rotateLeft s0 (by decide), ← rotl_eq_rotateLeft s0 (by decide),
    ← rotl_eq_rotateLeft s1 (by decide)]
  refine GenState.ext_words ?_ ?_
  · rw [genNext_s0, BitVec.shiftLeft_xor_distrib, BitVec.xor_comm s1, BitVec.xor_comm (s1 <<< shB),
      ← BitVec.xor_assoc (rotl s0 rotA), word_xor_xor_xor_comm]
    rfl
  · rw [genNext_s1, rotl_xor, BitVec.xor_comm]
    rfl

end Sys2Proof.Machine
end

section
/-! The statements of 41_generation.md on the step as a map: its bits, its inverse, its blocks. -/

namespace Sys2Proof.Proofs

open Sys2Proof.Machine

/-- Settles O29, bit by bit from R501. -/
theorem stepBitByBit : Obligations.StepBitByBit :=
  fun g _ hi => ⟨getLsbD_genNext_s0 g hi, getLsbD_genNext_s1 g hi⟩

/-- Settles O30: `StepInv` recovers the sum of the old words first, then the old S0. -/
theorem stepInvertibleAndLinear : Obligations.StepInvertibleAndLinear :=
  ⟨genPrev_genNext, genNext_genPrev, genNext_xor, genNext_eq_degenerate_iff⟩

/-- Settles O31, by distributing the rotation and the shift over the sum of the words. -/
theorem stepMatrixBlocks : Obligations.StepMatrixBlocks := genNext_blocks

end Sys2Proof.Proofs
end

section
/-! SUPPORT. The sum of the states that a list of bits selects: the jump loop for any number of bits (R601). A list of
bits is a polynomial over GF(2), and its sum is the polynomial of the step, applied to the state. -/

namespace Sys2Proof

theorem GenState.xor_xor_xor_comm (a b c d : GenState) : (a.xor b).xor (c.xor d) = (a.xor c).xor (b.xor d) := by
  rw [xor_assoc, xor_assoc, ← xor_assoc b, xor_comm b, xor_assoc c]

namespace Machine

/-- The sum of the states i steps on, over the bits i that are set, bit 0 first. -/
def stepSum : List Bool → GenState → GenState
  | [], _ => GenState.degenerate
  | b :: bs, g => (if b then g else GenState.degenerate).xor (stepSum bs (genNext g))

@[simp] theorem stepSum_nil (g : GenState) : stepSum [] g = GenState.degenerate := rfl

theorem stepSum_cons (b : Bool) (bs : List Bool) (g : GenState) :
    stepSum (b :: bs) g = (if b then g else GenState.degenerate).xor (stepSum bs (genNext g)) := rfl

/-- The jump loop adds the sum to its accumulator. -/
theorem foldl_jumpIter_acc (bits : List Bool) (x : JumpLoop) :
    (bits.foldl jumpIter x).acc = x.acc.xor (stepSum bits x.cur) := by
  induction bits generalizing x with
  | nil => simp
  | cons b bs ih =>
    rw [List.foldl_cons, ih, jumpIter_cur, jumpIter_acc, stepSum_cons]
    cases b <;> simp [GenState.xor_assoc]

theorem jump_eq_stepSum (cfg : Config) (g : GenState) :
    jump cfg g = stepSum (bitsOf cfg.jump0 ++ bitsOf cfg.jump1) g := by
  rw [jump, foldl_jumpIter_acc, GenState.degenerate_xor]

theorem stepSum_additive (bits : List Bool) : Additive (stepSum bits) := by
  induction bits with
  | nil => exact fun _ _ => (GenState.xor_self _).symm
  | cons b bs ih =>
    intro x y
    rw [stepSum_cons, stepSum_cons, stepSum_cons, genNext_xor, ih, GenState.xor_xor_xor_comm]
    cases b <;> simp

/-- Stepping first or summing first is the same. -/
theorem stepSum_commute (bits : List Bool) : Function.Commute (stepSum bits) genNext := by
  intro g
  induction bits generalizing g with
  | nil => exact genNext_degenerate.symm
  | cons b bs ih =>
    rw [stepSum_cons, stepSum_cons, genNext_xor, ih]
    cases b <;> simp

/-- The sum written with the list of the selected states (R601). -/
theorem stepSum_map_range (f : Nat → Bool) (n : Nat) (g : GenState) :
    stepSum ((List.range n).map f) g =
      (((List.range n).filter f).map (fun i => genNext^[i] g)).foldr GenState.xor GenState.degenerate := by
  induction n generalizing f g with
  | zero => rfl
  | succ n ih =>
    rw [List.range_succ_eq_map, List.map_cons, List.map_map, stepSum_cons, ih, List.filter_cons, List.filter_map]
    cases f 0 <;> simp [Function.comp_def]

/-- The bits of the two constants, one list of 128. -/
theorem jumpBits_eq (cfg : Config) : bitsOf cfg.jump0 ++ bitsOf cfg.jump1 =
    (List.range 128).map (fun i => if i < 64 then cfg.jump0.getLsbD i else cfg.jump1.getLsbD (i - 64)) := by
  have hlow : (List.range 64).map (fun i => if i < 64 then cfg.jump0.getLsbD i else cfg.jump1.getLsbD (i - 64)) =
      bitsOf cfg.jump0 :=
    List.map_congr_left fun i hi => if_pos (List.mem_range.mp hi)
  have hhigh : (List.range 64).map (fun i => if 64 + i < 64 then cfg.jump0.getLsbD (64 + i) else
      cfg.jump1.getLsbD (64 + i - 64)) = bitsOf cfg.jump1 := by
    simp [bitsOf]
  rw [show 128 = 64 + 64 from rfl, List.range_add, List.map_append, List.map_map, hlow]
  exact congrArg _ hhigh.symm

theorem jump_additive (cfg : Config) : Additive (jump cfg) := by
  rw [show jump cfg = stepSum _ from funext (jump_eq_stepSum cfg)]
  exact stepSum_additive _

theorem jump_commute (cfg : Config) : Function.Commute (jump cfg) genNext := by
  rw [show jump cfg = stepSum _ from funext (jump_eq_stepSum cfg)]
  exact stepSum_commute _

end Machine

end Sys2Proof
end

section
/-! The statements of 42_jump.md on the jump of any constants. -/

namespace Sys2Proof.Proofs

open Sys2Proof.Machine

/-- Settles O35: the accumulators of the loop hold the sum of the selected states. -/
theorem jumpSumsSelectedStates : Obligations.JumpSumsSelectedStates := by
  intro cfg g
  rw [jump_eq_stepSum, jumpBits_eq, stepSum_map_range]
  rfl

/-- Settles O36: a sum of iterates of an additive map is additive. -/
theorem jumpIsLinear : Obligations.JumpIsLinear :=
  fun cfg => ⟨jump_additive cfg, (jump_additive cfg).degenerate⟩

end Sys2Proof.Proofs
end

section
/-! SUPPORT. Polynomials over GF(2), written as numbers with one byte for each coefficient, so that the product of two
numbers is the product of the polynomials as long as no byte overflows. The coefficient is the parity of the byte. -/

namespace Sys2Proof.Machine

/-- The coefficients of a polynomial, the constant one first. -/
def polyCoeffs (a : Nat) : List Bool := (Nat.digits 256 a).map (fun d => d % 2 == 1)

/-- The polynomial of the step, applied to a state. -/
def polyAt (a : Nat) (g : GenState) : GenState := stepSum (polyCoeffs a) g

@[simp] theorem polyAt_zero (g : GenState) : polyAt 0 g = GenState.degenerate := by
  simp [polyAt, polyCoeffs]

/-- The constant coefficient selects the state itself, the others go on from the next state. -/
theorem polyAt_eq (a : Nat) (g : GenState) : polyAt a g =
    (if a % 2 = 1 then g else GenState.degenerate).xor (polyAt (a / 256) (genNext g)) := by
  obtain rfl | ha := Nat.eq_zero_or_pos a
  · simp
  · have hparity : a % 256 % 2 = a % 2 := by omega
    rw [polyAt, polyCoeffs, Nat.digits_def' (by decide) ha, List.map_cons, stepSum_cons, hparity]
    simp [polyAt, polyCoeffs]

theorem polyAt_commute (a : Nat) : Function.Commute (polyAt a) genNext := stepSum_commute _

@[simp] theorem polyAt_one (g : GenState) : polyAt 1 g = g := by
  rw [polyAt_eq, Nat.div_eq_of_lt (by decide), polyAt_zero, if_pos rfl, GenState.xor_degenerate]

/-- A polynomial moved up by one byte is the polynomial times x. -/
theorem polyAt_shift (a : Nat) (g : GenState) : polyAt (256 * a) g = genNext (polyAt a g) := by
  rw [polyAt_eq, if_neg (by omega), GenState.degenerate_xor, Nat.mul_div_cancel_left _ (by decide), polyAt_commute]

/-- Every byte is at most m. -/
def BytesLe (m a : Nat) : Prop := ∀ d ∈ Nat.digits 256 a, d ≤ m

theorem bytesLe_zero (m : Nat) : BytesLe m 0 := by simp [BytesLe]

theorem bytesLe_iff {m a : Nat} : BytesLe m a ↔ a % 256 ≤ m ∧ BytesLe m (a / 256) := by
  obtain rfl | ha := Nat.eq_zero_or_pos a
  · simp [BytesLe]
  · rw [BytesLe, Nat.digits_def' (by decide) ha, List.forall_mem_cons]
    rfl

theorem BytesLe.mono {m k a : Nat} (h : BytesLe m a) (hmk : m ≤ k) : BytesLe k a :=
  fun d hd => (h d hd).trans hmk

theorem BytesLe.shift {m a : Nat} (h : BytesLe m a) : BytesLe m (256 * a) := by
  rw [bytesLe_iff, Nat.mul_mod_right, Nat.mul_div_cancel_left _ (by decide)]
  exact ⟨Nat.zero_le m, h⟩

/-- Bytes that do not overflow are added one by one. -/
theorem BytesLe.add {m k a b : Nat} (ha : BytesLe m a) (hb : BytesLe k b) (hmk : m + k ≤ 255) :
    BytesLe (m + k) (a + b) ∧ ∀ g, polyAt (a + b) g = (polyAt a g).xor (polyAt b g) := by
  induction a using Nat.strong_induction_on generalizing b with
  | _ a ih =>
    obtain rfl | hpos := Nat.eq_zero_or_pos a
    · simpa using hb.mono (Nat.le_add_left k m)
    obtain ⟨ha0, ha'⟩ := bytesLe_iff.mp ha
    obtain ⟨hb0, hb'⟩ := bytesLe_iff.mp hb
    have hdiv : (a + b) / 256 = a / 256 + b / 256 := by omega
    obtain ⟨hbytes, hsum⟩ := ih (a / 256) (by omega) ha' hb'
    refine ⟨bytesLe_iff.mpr ⟨by omega, hdiv ▸ hbytes⟩, fun g => ?_⟩
    have hparity : (if (a + b) % 2 = 1 then g else GenState.degenerate) =
        (if a % 2 = 1 then g else GenState.degenerate).xor (if b % 2 = 1 then g else GenState.degenerate) := by
      obtain h1 | h1 := Nat.mod_two_eq_zero_or_one a <;> obtain h2 | h2 := Nat.mod_two_eq_zero_or_one b <;>
        simp [Nat.add_mod, h1, h2]
    rw [polyAt_eq, polyAt_eq a, polyAt_eq b, hdiv, hsum, hparity]
    exact GenState.xor_xor_xor_comm _ _ _ _

theorem lt_pow_succ_iff {a p : Nat} : a < 256 ^ (p + 1) ↔ a / 256 < 256 ^ p := by
  rw [Nat.pow_succ, Nat.div_lt_iff_lt_mul (by decide)]

/-- The product of the numbers is the product of the polynomials, if no byte of it can overflow: a byte of the product
counts at most one for each coefficient of the first factor. -/
theorem BytesLe.mul {p a b : Nat} (ha : BytesLe 1 a) (hap : a < 256 ^ p) (hb : BytesLe 1 b) (hp : p ≤ 255) :
    BytesLe p (a * b) ∧ ∀ g, polyAt (a * b) g = polyAt a (polyAt b g) := by
  induction p generalizing a with
  | zero =>
    obtain rfl : a = 0 := by simpa using hap
    simp [bytesLe_zero]
  | succ p ih =>
    obtain ⟨ha0, ha'⟩ := bytesLe_iff.mp ha
    obtain ⟨hbytes, hprod⟩ := ih ha' (lt_pow_succ_iff.mp hap) (by omega)
    have hsplit : a * b = a % 256 * b + 256 * (a / 256 * b) := by
      rw [← mul_assoc, ← Nat.add_mul, Nat.mod_add_div]
    have hparity : a % 256 = a % 2 := by omega
    have hfirst : BytesLe 1 (a % 256 * b) ∧
        ∀ g, polyAt (a % 256 * b) g = if a % 2 = 1 then polyAt b g else GenState.degenerate := by
      obtain h0 | h1 := Nat.mod_two_eq_zero_or_one a
      · simp [hparity, h0, bytesLe_zero]
      · simpa [hparity, h1] using hb
    obtain ⟨hsum, hval⟩ := hfirst.1.add hbytes.shift (by omega)
    rw [hsplit]
    refine ⟨Nat.add_comm 1 p ▸ hsum, fun g => ?_⟩
    rw [hval, hfirst.2, polyAt_shift, hprod, polyAt_eq a, polyAt_commute]

/-- The number with 1 in each of its n bytes: the mask that keeps the parity of each. -/
def byteOnes : Nat → Nat
  | 0 => 0
  | n + 1 => 256 * byteOnes n + 1

theorem byteOnes_lt (n : Nat) : byteOnes n < 256 ^ n := by
  induction n with
  | zero => decide
  | succ n ih => rw [byteOnes, Nat.pow_succ]; omega

theorem land_byteOnes_succ (a n : Nat) :
    (a &&& byteOnes (n + 1)) % 256 = a % 2 ∧ (a &&& byteOnes (n + 1)) / 256 = a / 256 &&& byteOnes n := by
  have hmod : byteOnes (n + 1) % 2 ^ 8 = 1 := by rw [byteOnes]; omega
  have hdiv : byteOnes (n + 1) / 2 ^ 8 = byteOnes n := by rw [byteOnes]; omega
  constructor
  · rw [show 256 = 2 ^ 8 from rfl, Nat.and_mod_two_pow, hmod, Nat.and_one_is_mod]
    omega
  · rw [show 256 = 2 ^ 8 from rfl, Nat.and_div_two_pow, hdiv]

/-- The mask makes every byte a coefficient, and changes no parity. -/
theorem polyAt_land_byteOnes {a n : Nat} (ha : a < 256 ^ n) (g : GenState) :
    polyAt (a &&& byteOnes n) g = polyAt a g := by
  induction n generalizing a g with
  | zero =>
    obtain rfl : a = 0 := by simpa using ha
    rfl
  | succ n ih =>
    obtain ⟨hmod, hdiv⟩ := land_byteOnes_succ a n
    have hparity : (a &&& byteOnes (n + 1)) % 2 = a % 2 := by omega
    rw [polyAt_eq, polyAt_eq a, hdiv, hparity, ih (lt_pow_succ_iff.mp ha)]

theorem bytesLe_land_byteOnes (a n : Nat) : BytesLe 1 (a &&& byteOnes n) := by
  induction n generalizing a with
  | zero => simp [byteOnes, bytesLe_zero]
  | succ n ih =>
    obtain ⟨hmod, hdiv⟩ := land_byteOnes_succ a n
    exact bytesLe_iff.mpr ⟨by omega, hdiv ▸ ih _⟩

theorem land_byteOnes_lt (a n : Nat) : a &&& byteOnes n < 256 ^ n :=
  Nat.and_le_right.trans_lt (byteOnes_lt n)

/-- The number whose bytes are the low n bits of p: how a polynomial is written down. -/
def spreadBits : Nat → Nat → Nat
  | 0, _ => 0
  | n + 1, p => 256 * spreadBits n (p / 2) + p % 2

theorem bytesLe_spreadBits (n p : Nat) : BytesLe 1 (spreadBits n p) := by
  induction n generalizing p with
  | zero => exact bytesLe_zero 1
  | succ n ih =>
    have hdiv : spreadBits (n + 1) p / 256 = spreadBits n (p / 2) := by rw [spreadBits]; omega
    exact bytesLe_iff.mpr ⟨by rw [spreadBits]; omega, hdiv ▸ ih _⟩

theorem spreadBits_lt (n p : Nat) : spreadBits n p < 256 ^ n := by
  induction n generalizing p with
  | zero => simp [spreadBits]
  | succ n ih =>
    have := ih (p / 2)
    rw [spreadBits, Nat.pow_succ]
    omega

/-- The coefficients by a recursion on their number, which evaluates. -/
def coeffList : Nat → Nat → List Bool
  | 0, _ => []
  | n + 1, a => (a % 2 == 1) :: coeffList n (a / 256)

theorem polyAt_eq_coeffList {a n : Nat} (ha : a < 256 ^ n) (g : GenState) :
    polyAt a g = stepSum (coeffList n a) g := by
  induction n generalizing a g with
  | zero =>
    obtain rfl : a = 0 := by simpa using ha
    simp [coeffList]
  | succ n ih =>
    rw [polyAt_eq, coeffList, stepSum_cons, ih (lt_pow_succ_iff.mp ha)]
    simp

end Sys2Proof.Machine
end

section
/-! SUPPORT. Powers of x modulo the characteristic polynomial of the step: how far any number of steps leads is computed
by squaring. -/

namespace Sys2Proof.Machine

/-- The characteristic polynomial of the step, of degree 128. -/
def charPoly : Nat := spreadBits 129 0x100653ced7f29f88a5fd66762f0e1c001

/-- The quotient of x^256 by the characteristic polynomial. -/
def charQuotient : Nat := spreadBits 129 0x1006528fbba63b059d47160c20c65b49d

/-- The product of two polynomials modulo the characteristic one. The quotient is estimated as in Barrett's reduction;
whatever the estimate is, a multiple of the characteristic polynomial is added, and a remainder that is too long is
no answer. -/
def polyMulMod (a b : Nat) : Option Nat :=
  let product := a * b &&& byteOnes 257
  let quotient := ((product >>> 1024) * charQuotient) >>> 1024 &&& byteOnes 128
  let remainder := product + quotient * charPoly &&& byteOnes 258
  if remainder < 256 ^ 128 then some remainder else none

/-- The polynomials of degree below 128. -/
def IsReduced (a : Nat) : Prop := BytesLe 1 a ∧ a < 256 ^ 128

theorem charPoly_bytesLe : BytesLe 1 charPoly := bytesLe_spreadBits 129 _

theorem charPoly_lt : charPoly < 256 ^ 129 := spreadBits_lt 129 _

theorem mul_lt_pow_add {a b p q n : Nat} (ha : a < 256 ^ p) (hb : b < 256 ^ q) (hn : p + q ≤ n) :
    a * b < 256 ^ n := by
  calc a * b < 256 ^ p * 256 ^ q := Nat.mul_lt_mul'' ha hb
    _ = 256 ^ (p + q) := (Nat.pow_add 256 p q).symm
    _ ≤ 256 ^ n := Nat.pow_le_pow_right (by decide) hn

theorem add_lt_pow {a b n k : Nat} (ha : a < 256 ^ n) (hb : b < 256 ^ n) (hk : n < k) : a + b < 256 ^ k :=
  calc a + b < 256 ^ (n + 1) := by rw [Nat.pow_succ]; omega
    _ ≤ 256 ^ k := Nat.pow_le_pow_right (by decide) hk

/-- A multiple of the characteristic polynomial adds nothing at a state that the polynomial takes to (0, 0). -/
theorem polyAt_add_multiple {a q : Nat} {g : GenState} (hg : polyAt charPoly g = GenState.degenerate)
    (ha : BytesLe 1 a) (halt : a < 256 ^ 257) (hq : BytesLe 1 q) (hqlt : q < 256 ^ 128) :
    polyAt (a + q * charPoly &&& byteOnes 258) g = polyAt a g := by
  obtain ⟨hbytes, hmul⟩ := hq.mul hqlt charPoly_bytesLe (by decide)
  obtain ⟨-, hsum⟩ := ha.add hbytes (by decide)
  have hlt : a + q * charPoly < 256 ^ 258 :=
    add_lt_pow halt (mul_lt_pow_add hqlt charPoly_lt (by decide)) (by decide)
  have hzero : polyAt q GenState.degenerate = GenState.degenerate := (stepSum_additive _).degenerate
  rw [polyAt_land_byteOnes hlt, hsum, hmul, hg, hzero, GenState.xor_degenerate]

theorem polyMulMod_spec {a b r : Nat} {g : GenState} (hg : polyAt charPoly g = GenState.degenerate)
    (ha : IsReduced a) (hb : IsReduced b) (h : polyMulMod a b = some r) :
    IsReduced r ∧ polyAt r g = polyAt a (polyAt b g) := by
  rw [polyMulMod, Option.ite_none_right_eq_some] at h
  obtain ⟨hlt, hr⟩ := h
  injection hr with hr
  subst hr
  obtain ⟨-, hprod⟩ := ha.1.mul ha.2 hb.1 (by decide)
  refine ⟨⟨bytesLe_land_byteOnes _ _, hlt⟩, ?_⟩
  rw [polyAt_add_multiple hg (bytesLe_land_byteOnes _ _) (land_byteOnes_lt _ _) (bytesLe_land_byteOnes _ _)
    (land_byteOnes_lt _ _), polyAt_land_byteOnes (mul_lt_pow_add ha.2 hb.2 (by decide)), hprod]

/-- `x^n` modulo the characteristic polynomial, for n of k bits; the number of the polynomial x is 256. -/
def polyPow : Nat → Nat → Option Nat
  | 0, _ => some 1
  | k + 1, n =>
    (polyPow k (n / 2)).bind fun root => (polyMulMod root root).bind fun square =>
      if n % 2 = 1 then polyMulMod 256 square else some square

theorem isReduced_one : IsReduced 1 := ⟨bytesLe_spreadBits 1 1, by norm_num⟩

theorem isReduced_x : IsReduced 256 := ⟨bytesLe_spreadBits 2 2, by norm_num⟩

/-- The power of x leads as many steps on as its exponent says. -/
theorem polyPow_spec {k n a : Nat} {g : GenState} (hg : polyAt charPoly g = GenState.degenerate) (hn : n < 2 ^ k)
    (h : polyPow k n = some a) : IsReduced a ∧ polyAt a g = genNext^[n] g := by
  induction k generalizing n a with
  | zero =>
    obtain rfl : n = 0 := by simpa using hn
    obtain rfl : 1 = a := by simpa [polyPow] using h
    exact ⟨isReduced_one, polyAt_one g⟩
  | succ k ih =>
    rw [polyPow, Option.bind_eq_some_iff] at h
    obtain ⟨root, hroot, h⟩ := h
    obtain ⟨square, hsquare, h⟩ := Option.bind_eq_some_iff.mp h
    obtain ⟨hrred, hrval⟩ := ih (by omega) hroot
    obtain ⟨hsred, hsval⟩ := polyMulMod_spec hg hrred hrred hsquare
    have hdouble : polyAt square g = genNext^[n / 2 + n / 2] g := by
      rw [hsval, hrval, ((polyAt_commute root).iterate_right _).eq, hrval, Function.iterate_add_apply]
    obtain hn2 | hn2 := Nat.mod_two_eq_zero_or_one n
    · rw [if_neg (by omega)] at h
      injection h with h
      subst h
      refine ⟨hsred, ?_⟩
      rw [hdouble, show n / 2 + n / 2 = n by omega]
    · rw [if_pos hn2] at h
      obtain ⟨hared, haval⟩ := polyMulMod_spec hg isReduced_x hsred h
      refine ⟨hared, ?_⟩
      have hx : ∀ u, polyAt 256 u = genNext u := fun u => by rw [← Nat.mul_one 256, polyAt_shift, polyAt_one]
      rw [haval, hx, hdouble, ← Function.iterate_succ_apply' genNext, show (n / 2 + n / 2).succ = n by omega]

end Sys2Proof.Machine
end

section
/-! SUPPORT. The number of steps after which a state comes back (R503): 2^128 - 1, by its prime factors. -/

namespace Sys2Proof.Machine

/-- The state from which steps are counted by powers of x: bit 0 of S0 alone. -/
def baseState : GenState := ⟨1, 0⟩

/-- The state n steps on from the base state, by the power of x. -/
def stepsAhead (n : Nat) : Option GenState := (polyPow 128 n).map fun a => stepSum (coeffList 128 a) baseState

theorem charPoly_baseState : polyAt charPoly baseState = GenState.degenerate := by
  rw [polyAt_eq_coeffList charPoly_lt]
  decide +kernel

theorem iterate_of_stepsAhead {n : Nat} {g : GenState} (hn : n < 2 ^ 128) (h : stepsAhead n = some g) :
    genNext^[n] baseState = g := by
  rw [stepsAhead, Option.map_eq_some_iff] at h
  obtain ⟨a, ha, rfl⟩ := h
  obtain ⟨⟨-, hlt⟩, hval⟩ := polyPow_spec charPoly_baseState hn ha
  rw [← hval, polyAt_eq_coeffList hlt]

/-- The length of the cycle of the step (R503). -/
def period : Nat := 2 ^ 128 - 1

/-- The prime factors of the period: those of the Fermat numbers 2^(2^i) + 1, for i up to 6. -/
def periodPrimes : List Nat := [3, 5, 17, 257, 641, 65537, 274177, 6700417, 67280421310721]

theorem periodPrimes_prod : periodPrimes.prod = period := by decide

/-- The largest factor, by Lucas's test: 3 has the full order, whose prime factors are 2, 5, 47, 373 and 2998279. -/
theorem prime_67280421310721 : Nat.Prime 67280421310721 := by
  have hfactors : (List.replicate 8 2 ++ [5, 47, 373, 2998279]).prod = 67280421310721 - 1 := by decide
  have hprimes : ∀ q ∈ List.replicate 8 2 ++ [5, 47, 373, 2998279], Prime q := by
    simp only [← Nat.prime_iff]
    norm_num
  refine lucas_primality _ 3 (by reduce_mod_char) fun q hq hdvd => ?_
  have hmem := mem_list_primes_of_dvd_prod hq.prime hprimes (hfactors ▸ hdvd)
  obtain rfl | rfl | rfl | rfl | rfl : q = 2 ∨ q = 5 ∨ q = 47 ∨ q = 373 ∨ q = 2998279 := by simpa using hmem
  all_goals
    norm_num only
    reduce_mod_char
    decide

theorem periodPrimes_prime : ∀ q ∈ periodPrimes, Nat.Prime q := by
  simp only [periodPrimes, List.forall_mem_cons, prime_67280421310721, true_and]
  norm_num

/-- `x^(2^128 - 1)` is 1, evaluated. -/
theorem stepsAhead_period : stepsAhead period = some baseState := by decide +kernel

/-- No smaller quotient of the period by a prime will do, evaluated. -/
theorem stepsAhead_period_div :
    ∀ q ∈ periodPrimes, (stepsAhead (period / q)).any (· != baseState) = true := by decide +kernel

/-- The order test: n is the least number of steps that lead back if no n / q, for a prime factor q of n, does. -/
theorem minimalPeriod_eq_of_prime_div {α : Type} {f : α → α} {x : α} {n : Nat} (hx : f^[n] x = x)
    (h : ∀ q, q.Prime → q ∣ n → f^[n / q] x ≠ x) : Function.minimalPeriod f x = n := by
  have hdvd : Function.minimalPeriod f x ∣ n := Function.IsPeriodicPt.minimalPeriod_dvd hx
  obtain ⟨c, hc⟩ := hdvd
  by_contra hne
  obtain ⟨q, hq, e, rfl⟩ : ∃ q, Nat.Prime q ∧ q ∣ c :=
    Nat.exists_prime_and_dvd fun h1 => hne (by rw [h1, Nat.mul_one] at hc; exact hc.symm)
  have hdiv : n / q = Function.minimalPeriod f x * e := by
    rw [hc, Nat.mul_left_comm, Nat.mul_div_cancel_left _ hq.pos]
  refine h q hq ⟨Function.minimalPeriod f x * e, by rw [hc, Nat.mul_left_comm]⟩ ?_
  rw [hdiv]
  exact Function.isPeriodicPt_iff_minimalPeriod_dvd.mpr ⟨e, rfl⟩

theorem minimalPeriod_baseState : Function.minimalPeriod genNext baseState = period := by
  refine minimalPeriod_eq_of_prime_div (iterate_of_stepsAhead (by decide) stepsAhead_period)
    fun q hq hdvd => ?_
  have hmem : q ∈ periodPrimes :=
    mem_list_primes_of_dvd_prod hq.prime (fun p hp => (periodPrimes_prime p hp).prime) (periodPrimes_prod ▸ hdvd)
  obtain ⟨g, hg, hne⟩ := (Option.any_eq_true _ _).mp (stepsAhead_period_div q hmem)
  have hlt : period / q < 2 ^ 128 := (Nat.div_le_self _ _).trans_lt (by decide)
  rw [iterate_of_stepsAhead hlt hg]
  simpa using hne

/-- The states as pairs of finite numbers. -/
def genStateEquiv : GenState ≃ Fin (2 ^ 64) × Fin (2 ^ 64) where
  toFun g := (g.s0.toFin, g.s1.toFin)
  invFun p := ⟨.ofFin p.1, .ofFin p.2⟩
  left_inv _ := rfl
  right_inv _ := rfl

theorem finite_genState : Finite GenState := Finite.of_equiv _ genStateEquiv.symm

theorem ncard_nonDegenerate : ({GenState.degenerate}ᶜ : Set GenState).ncard = period := by
  have := finite_genState
  have hcard : Nat.card GenState = 2 ^ 128 := by
    rw [Nat.card_congr genStateEquiv, Nat.card_prod, Nat.card_eq_fintype_card, Fintype.card_fin, ← Nat.pow_add]
  have hsum := Set.ncard_add_ncard_compl ({GenState.degenerate} : Set GenState)
  rw [Set.ncard_singleton, hcard] at hsum
  rw [period]
  omega

theorem iterate_genNext_eq_degenerate_iff (n : Nat) (g : GenState) :
    genNext^[n] g = GenState.degenerate ↔ g = GenState.degenerate := by
  rw [← (genNext_bijective.injective.iterate n).eq_iff (a := g), genNext_additive.iterate n |>.degenerate]

/-- As many states follow the base state as there are non-zero states, so these are all (R503). -/
theorem exists_iterate_baseState {g : GenState} (hg : g ≠ GenState.degenerate) :
    ∃ n < period, genNext^[n] baseState = g := by
  have := finite_genState
  have hinj : Set.InjOn (genNext^[·] baseState) (Set.Iio period) :=
    minimalPeriod_baseState ▸ Function.iterate_injOn_Iio_minimalPeriod
  have hsub : (genNext^[·] baseState) '' Set.Iio period ⊆ {GenState.degenerate}ᶜ := by
    rintro _ ⟨n, -, rfl⟩
    exact (iterate_genNext_eq_degenerate_iff n baseState).not.mpr (by decide)
  have hall := Set.eq_of_subset_of_ncard_le hsub (by
    rw [ncard_nonDegenerate, hinj.ncard_image, Set.ncard_Iio_nat])
  rw [← Set.mem_compl_singleton_iff, ← hall] at hg
  exact hg

end Sys2Proof.Machine
end

section
/-! SUPPORT. The one cycle of the non-zero states (R503), and the jump as a number of steps along it (R602, R620). -/

namespace Sys2Proof.Machine

theorem minimalPeriod_genNext {g : GenState} (hg : g ≠ GenState.degenerate) :
    Function.minimalPeriod genNext g = period := by
  obtain ⟨k, -, rfl⟩ := exists_iterate_baseState hg
  have hperiodic : baseState ∈ Function.periodicPts genNext :=
    Function.minimalPeriod_pos_iff_mem_periodicPts.mp (by rw [minimalPeriod_baseState]; decide)
  rw [Function.minimalPeriod_apply_iterate hperiodic, minimalPeriod_baseState]

theorem iterate_genNext_eq_self_iff {g : GenState} (hg : g ≠ GenState.degenerate) (n : Nat) :
    genNext^[n] g = g ↔ period ∣ n := by
  rw [← minimalPeriod_genNext hg]
  exact Function.isPeriodicPt_iff_minimalPeriod_dvd

/-- Fewer steps than the period apart, two states of the cycle are different. -/
theorem iterate_genNext_ne {g : GenState} (hg : g ≠ GenState.degenerate) {m n : Nat} (hmn : m < n)
    (hlt : n - m < period) : genNext^[m] g ≠ genNext^[n] g := by
  intro h
  have hback : genNext^[n - m] g = g := by
    apply genNext_bijective.injective.iterate m
    rw [← Function.iterate_add_apply, Nat.add_sub_cancel' hmn.le, h]
  exact Nat.not_dvd_of_pos_of_lt (by omega) hlt ((iterate_genNext_eq_self_iff hg _).mp hback)

/-- Every non-zero state is reached from every other, within one turn of the cycle. -/
theorem exists_iterate_genNext {g g' : GenState} (hg : g ≠ GenState.degenerate) (hg' : g' ≠ GenState.degenerate) :
    ∃ n < period, genNext^[n] g = g' := by
  obtain ⟨a, ha, rfl⟩ := exists_iterate_baseState hg
  obtain ⟨b, -, rfl⟩ := exists_iterate_baseState hg'
  refine ⟨(b + (period - a)) % period, Nat.mod_lt _ (by decide), ?_⟩
  have hturn : genNext^[period] baseState = baseState :=
    (iterate_genNext_eq_self_iff (by decide) _).mpr dvd_rfl
  calc genNext^[(b + (period - a)) % period] (genNext^[a] baseState)
    _ = genNext^[b + (period - a)] (genNext^[a] baseState) := by
        rw [← minimalPeriod_genNext hg, Function.iterate_mod_minimalPeriod_eq]
    _ = genNext^[b + period] baseState := by
        rw [← Function.iterate_add_apply, Nat.add_assoc, Nat.sub_add_cancel ha.le]
    _ = genNext^[b] baseState := by rw [Function.iterate_add_apply, hturn]

theorem jump_baseState : jump Config.standard baseState = genNext^[2 ^ 64] baseState :=
  (iterate_of_stepsAhead (by decide) (by decide +kernel)).symm

/-- R602: the default jump is 2^64 steps. It is so for one state, from which steps lead to all the others. -/
theorem jump_eq_iterate (g : GenState) : jump Config.standard g = genNext^[2 ^ 64] g := by
  by_cases hg : g = GenState.degenerate
  · rw [hg, (jump_additive _).degenerate, (genNext_additive.iterate _).degenerate]
  · obtain ⟨k, -, rfl⟩ := exists_iterate_baseState hg
    rw [((jump_commute _).iterate_right k).eq, jump_baseState, ← Function.iterate_add_apply,
      ← Function.iterate_add_apply, Nat.add_comm]

theorem jump_iterate (n : Nat) (g : GenState) : (jump Config.standard)^[n] g = genNext^[n * 2 ^ 64] g := by
  rw [show jump Config.standard = genNext^[2 ^ 64] from funext jump_eq_iterate, ← Function.iterate_mul, Nat.mul_comm]

theorem jump_bijective : Function.Bijective (jump Config.standard) := by
  rw [show jump Config.standard = genNext^[2 ^ 64] from funext jump_eq_iterate]
  exact genNext_bijective.iterate _

theorem jump_eq_degenerate_iff (g : GenState) :
    jump Config.standard g = GenState.degenerate ↔ g = GenState.degenerate := by
  rw [jump_eq_iterate, iterate_genNext_eq_degenerate_iff]

/-- JUMP completes with one jump (R610). -/
theorem exec_jump (s : State) :
    exec .jump s = .next (s.complete (jump Config.standard s.gen) okResponse) := rfl

/-- JUMPN jumps as often as its operand says (R620). -/
theorem exec_jumpn (n : Word) (s : State) :
    exec (.jumpn n) s = .next (s.complete ((jump Config.standard)^[n.toNat] s.gen) okResponse) := rfl

/-- The state after JUMP, as R620 repeats it. -/
def State.afterJump (s : State) : State :=
  match exec .jump s with
  | .next t => t
  | _ => s

@[simp] theorem State.afterJump_gen (s : State) : s.afterJump.gen = jump Config.standard s.gen := by
  rw [State.afterJump, exec_jump]
  rfl

theorem State.afterJump_iterate_gen (n : Nat) (s : State) :
    (State.afterJump^[n] s).gen = (jump Config.standard)^[n] s.gen :=
  Function.Semiconj.iterate_right (f := State.gen) State.afterJump_gen n s

end Sys2Proof.Machine
end

section
/-! The statements on the cycle of the step and on the jump along it (41_generation.md section 1, 42_jump.md). -/

namespace Sys2Proof.Proofs

open Sys2Proof.Machine

/-- Settles O32: the base state comes back after 2^128 - 1 steps and no sooner, by the order of x modulo the
characteristic polynomial, and the states on its way are then all the non-zero ones. -/
theorem stepHasFullPeriod : Obligations.StepHasFullPeriod :=
  ⟨fun _ n hg => iterate_genNext_eq_self_iff hg n, fun _ _ hg hg' => exists_iterate_genNext hg hg'⟩

/-- Settles O37: the jump commutes with the step, so 2^64 steps from one state make 2^64 steps from all. -/
theorem jumpIsTwoPow64Steps : Obligations.JumpIsTwoPow64Steps := by
  intro s
  have hexec : exec .jump s =
      .next { s with gen := jump Config.standard s.gen, phase := .responding ⟨.ok, 0, 0⟩ } := rfl
  rw [hexec, jump_eq_iterate]

/-- Settles O39: the jump is an iterate of the step, which is a bijection that fixes (0, 0). -/
theorem jumpIsInvertible : Obligations.JumpIsInvertible :=
  ⟨jump_bijective, jump_eq_degenerate_iff⟩

/-- Settles O41: the two states are a positive number of steps apart, and fewer than the period. -/
theorem jumpStreamsDisjoint : Obligations.JumpStreamsDisjoint := by
  intro g k a b i j hg hk hab hbk hi hj
  rw [jump_iterate, jump_iterate, ← Function.iterate_add_apply, ← Function.iterate_add_apply]
  refine iterate_genNext_ne hg ?_ ?_
  · omega
  · rw [period]
    omega

/-- Settles O42: the two states are 2^64 steps apart. -/
theorem jumpThenNextDiffersFromDiscardOne : Obligations.JumpThenNextDiffersFromDiscardOne := by
  intro s hs
  refine ⟨_, _, _, exec_jump s, exec_next _, exec_discard 1 s, ?_⟩
  rw [State.complete_gen, State.complete_gen, State.complete_gen, jump_eq_iterate,
    ← Function.iterate_succ_apply' genNext]
  exact (iterate_genNext_ne hs (by decide) (by decide)).symm

/-- Settles O43: reading S0 and S1 turns repeated JUMP into repeated jumps. -/
theorem jumpnRepeatsJump : Obligations.JumpnRepeatsJump := by
  intro n s
  change _ = Host.Outcome.next (s.complete (State.afterJump^[n.toNat] s).gen okResponse)
  rw [exec_jumpn, State.afterJump_iterate_gen]

/-- Settles O44: n times 2^64 steps. -/
theorem jumpnIsManySteps : Obligations.JumpnIsManySteps :=
  fun n s => ⟨_, exec_jumpn n s, jump_iterate n.toNat s.gen⟩

/-- Settles O38: JUMP is one turn of the accumulator loop, and so is a count of 1. -/
theorem jumpAppliesJumpOnce : Obligations.JumpAppliesJumpOnce :=
  fun s => ⟨exec_jump s, exec_jumpn 1 s⟩

end Sys2Proof.Proofs
end

section
/-! SUPPORT. The jump matrix (R605, R606): its rows are masks, and a step of the state is a step of the masks the other
way round. So the matrix commutes with the step, row by row. -/

namespace Sys2Proof.Machine

/-- A bit as an element of GF(2). -/
def gf2 (b : Bool) : ZMod 2 := if b then 1 else 0

theorem gf2_injective : Function.Injective gf2 := by decide

@[simp] theorem gf2_xor (a b : Bool) : gf2 (a ^^ b) = gf2 a + gf2 b := by
  revert a b
  decide

theorem gf2_parity (w : Word) : gf2 (parity w) = ∑ i : Fin 64, gf2 (w.getLsbD i) := by
  have hfold : ∀ n, gf2 ((List.range n).foldl (fun p b => p ^^ w.getLsbD b) false) =
      ∑ i ∈ Finset.range n, gf2 (w.getLsbD i) := by
    intro n
    induction n with
    | zero => rfl
    | succ n ih => rw [List.range_succ, List.foldl_append, Finset.sum_range_succ, ← ih]; simp
  rw [Fin.sum_univ_eq_sum_range (fun i => gf2 (w.getLsbD i))]
  exact hfold 64

theorem parity_xor (a b : Word) : parity (a ^^^ b) = (parity a ^^ parity b) := by
  apply gf2_injective
  simp only [gf2_xor, gf2_parity, BitVec.getLsbD_xor, Finset.sum_add_distrib]

theorem parity_xor_and (a b m : Word) : parity ((a ^^^ b) &&& m) = (parity (a &&& m) ^^ parity (b &&& m)) := by
  rw [← parity_xor]
  congr 1
  refine BitVec.eq_of_getLsbD_eq fun i _ => ?_
  simp only [BitVec.getLsbD_and, BitVec.getLsbD_xor, Bool.and_xor_distrib_right]

theorem parity_and_xor (a m n : Word) : parity (a &&& (m ^^^ n)) = (parity (a &&& m) ^^ parity (a &&& n)) := by
  simp only [BitVec.and_comm a, parity_xor_and]

theorem parity_zero : parity 0 = false := by decide +kernel

/-- A rotation only moves the bits. -/
theorem parity_rotl (w : Word) {k : Nat} (hk0 : 0 < k) (hk : k < 64) : parity (rotl w k) = parity w := by
  apply gf2_injective
  have hmove : ∀ i : Fin 64, (rotl w k).getLsbD i = w.getLsbD (i + ⟨64 - k, by omega⟩ : Fin 64) := fun i => by
    rw [getLsbD_rotl _ _ _ hk hk0 i.isLt, Fin.val_add]
  simp only [gf2_parity, hmove]
  exact Equiv.sum_comp (Equiv.addRight (⟨64 - k, by omega⟩ : Fin 64)) fun i => gf2 (w.getLsbD i)

theorem rotl_and (a b : Word) {k : Nat} (hk0 : 0 < k) (hk : k < 64) : rotl (a &&& b) k = rotl a k &&& rotl b k := by
  refine BitVec.eq_of_getLsbD_eq fun i hi => ?_
  simp only [getLsbD_rotl _ _ _ hk hk0 hi, BitVec.getLsbD_and]

/-- A mask on a rotated word is the mask rotated back on the word. -/
theorem parity_rotl_and (a m : Word) {k l : Nat} (h : k + l = 64) (hk : 0 < k) (hl : 0 < l) :
    parity (rotl a k &&& m) = parity (a &&& rotl m l) := by
  rw [← parity_rotl (a &&& rotl m l) hk (by omega), rotl_and _ _ hk (by omega),
    rotl_rotl_of_add ((Nat.add_comm l k).trans h) hl hk]

/-- A mask on a shifted word is the mask shifted back on the word: the bits of the two are the same, moved. -/
theorem parity_shiftLeft_and (a m : Word) {k : Nat} (hk0 : 0 < k) (hk : k < 64) :
    parity (a <<< k &&& m) = parity (a &&& m >>> k) := by
  have hmove : a <<< k &&& m = rotl (a &&& m >>> k) k := by
    refine BitVec.eq_of_getLsbD_eq fun i hi => ?_
    rw [getLsbD_rotl _ _ _ hk hk0 hi]
    simp only [BitVec.getLsbD_and, BitVec.getLsbD_shiftLeft, BitVec.getLsbD_ushiftRight]
    obtain hik | hik := Nat.lt_or_ge i k
    · rw [BitVec.getLsbD_of_ge m (k + (i + (64 - k)) % 64) (by omega)]
      simp [hik]
    · rw [show (i + (64 - k)) % 64 = i - k by omega, Nat.add_sub_cancel' hik]
      simp [hi, Nat.not_lt.mpr hik]
  rw [hmove, parity_rotl _ hk0 hk]

/-- The mask that reads from the sum of the words what the given mask reads from the next state, S0's rotated word left
out. -/
def sumMask (row : Word × Word) : Word := row.1 ^^^ row.1 >>> shB ^^^ rotl row.2 (64 - rotC)

/-- The mask that reads from a state what the given mask reads from the next state. -/
def stepMask (row : Word × Word) : Word × Word := (rotl row.1 (64 - rotA) ^^^ sumMask row, sumMask row)

theorem rowBit_genNext (g : GenState) (row : Word × Word) : rowBit (genNext g) row = rowBit g (stepMask row) := by
  have hrotA := parity_rotl_and g.s0 row.1 (k := rotA) (l := 64 - rotA) rfl (by decide) (by decide)
  have hrotC := parity_rotl_and (g.s1 ^^^ g.s0) row.2 (k := rotC) (l := 64 - rotC) rfl (by decide) (by decide)
  have hshB := parity_shiftLeft_and (g.s1 ^^^ g.s0) row.1 (k := shB) (by decide) (by decide)
  calc rowBit (genNext g) row
    _ = (parity (g.s0 &&& rotl row.1 (64 - rotA)) ^^ parity ((g.s1 ^^^ g.s0) &&& sumMask row)) := by
        rw [rowBit, parity_xor, genNext_s0, genNext_s1, parity_xor_and, parity_xor_and _ (g.s1 ^^^ g.s0), hrotA, hrotC,
          hshB, sumMask, parity_and_xor, parity_and_xor, Bool.xor_assoc, Bool.xor_assoc, Bool.xor_assoc]
    _ = rowBit g (stepMask row) := by
        rw [rowBit, parity_xor, stepMask, parity_and_xor, parity_xor_and, Bool.xor_comm (parity (g.s1 &&& _)),
          Bool.xor_assoc]

/-- The mask that reads the sum of what two masks read. -/
def addMasks (r q : Word × Word) : Word × Word := (r.1 ^^^ q.1, r.2 ^^^ q.2)

theorem rowBit_addMasks (g : GenState) (r q : Word × Word) :
    rowBit g (addMasks r q) = (rowBit g r ^^ rowBit g q) := by
  simp only [rowBit, addMasks, parity_xor, parity_and_xor, Bool.xor_assoc, Bool.xor_left_comm (parity (g.s0 &&& q.1))]

@[simp] theorem rowBit_zero (g : GenState) : rowBit g (0, 0) = false := by
  change parity ((g.s0 &&& 0#64) ^^^ (g.s1 &&& 0#64)) = false
  rw [BitVec.and_zero, BitVec.and_zero, BitVec.xor_self]
  exact parity_zero

theorem getLsbD_wordOfBits (bs : List Bool) {i : Nat} (hi : i < 64) : (wordOfBits bs).getLsbD i = bs.getD i false := by
  induction bs generalizing i with
  | nil => simp [wordOfBits]
  | cons b bs ih =>
    rw [wordOfBits, BitVec.getLsbD_or, BitVec.getLsbD_shiftLeft]
    cases i with
    | zero => cases b <;> simp
    | succ i => rw [show i + 1 - 1 = i from rfl, ih (by omega)]; cases b <;> simp [hi]

/-- Row i of the half of the matrix that gives the new S0. -/
def rowS0 (i : Nat) : Word × Word := jumpRowsS0.getD i (0, 0)

/-- Row i of the half of the matrix that gives the new S1. -/
def rowS1 (i : Nat) : Word × Word := jumpRowsS1.getD i (0, 0)

theorem getLsbD_jumpByMatrix_s0 (g : GenState) {i : Nat} (hi : i < 64) :
    (jumpByMatrix g).s0.getLsbD i = rowBit g (rowS0 i) := by
  rw [jumpByMatrix, getLsbD_wordOfBits _ hi, ← rowBit_zero g, List.getD_map, rowS0]

theorem getLsbD_jumpByMatrix_s1 (g : GenState) {i : Nat} (hi : i < 64) :
    (jumpByMatrix g).s1.getLsbD i = rowBit g (rowS1 i) := by
  rw [jumpByMatrix, getLsbD_wordOfBits _ hi, ← rowBit_zero g, List.getD_map, rowS1]

/-- The rows of S0: the matrix after a step is a step after the matrix, as R501 gives the bits of S0. -/
theorem stepMask_rowS0 : ∀ i < 64, stepMask (rowS0 i) =
    addMasks (addMasks (rowS0 ((i + 64 - 55) % 64)) (addMasks (rowS0 i) (rowS1 i)))
      (if 14 ≤ i then addMasks (rowS0 (i - 14)) (rowS1 (i - 14)) else (0, 0)) := by
  decide +kernel

/-- The rows of S1, as R501 gives the bits of S1. -/
theorem stepMask_rowS1 : ∀ i < 64, stepMask (rowS1 i) =
    addMasks (rowS0 ((i + 64 - 36) % 64)) (rowS1 ((i + 64 - 36) % 64)) := by
  decide +kernel

theorem jumpByMatrix_commute : Function.Commute jumpByMatrix genNext := by
  intro g
  refine GenState.ext_words (BitVec.eq_of_getLsbD_eq fun i hi => ?_) (BitVec.eq_of_getLsbD_eq fun i hi => ?_)
  · have hi' : (i + 64 - 55) % 64 < 64 := Nat.mod_lt _ (by decide)
    rw [getLsbD_jumpByMatrix_s0 _ hi, rowBit_genNext, stepMask_rowS0 i hi, getLsbD_genNext_s0 _ hi,
      getLsbD_jumpByMatrix_s0 _ hi', getLsbD_jumpByMatrix_s0 _ hi, getLsbD_jumpByMatrix_s1 _ hi,
      getLsbD_jumpByMatrix_s0 g (i := i - 14) (by omega), getLsbD_jumpByMatrix_s1 g (i := i - 14) (by omega)]
    split <;> simp only [rowBit_addMasks, rowBit_zero]
  · have hi' : (i + 64 - 36) % 64 < 64 := Nat.mod_lt _ (by decide)
    rw [getLsbD_jumpByMatrix_s1 _ hi, rowBit_genNext, stepMask_rowS1 i hi, getLsbD_genNext_s1 _ hi,
      getLsbD_jumpByMatrix_s0 _ hi', getLsbD_jumpByMatrix_s1 _ hi', rowBit_addMasks]

/-- What a map that commutes with the step makes of (0, 0) is a fixed point of the step, and (0, 0) is the only one. -/
theorem jumpByMatrix_degenerate : jumpByMatrix GenState.degenerate = GenState.degenerate := by
  have hfixed : genNext (jumpByMatrix GenState.degenerate) = jumpByMatrix GenState.degenerate := by
    rw [← jumpByMatrix_commute, genNext_degenerate]
  by_contra h
  exact absurd ((iterate_genNext_eq_self_iff h 1).mp hfixed) (by decide)

/-- The matrix and the loop agree on one state, from which steps lead to all the others. -/
theorem jumpByMatrix_eq_jump (g : GenState) : jumpByMatrix g = jump Config.standard g := by
  by_cases hg : g = GenState.degenerate
  · rw [hg, (jump_additive _).degenerate, jumpByMatrix_degenerate]
  · obtain ⟨k, -, rfl⟩ := exists_iterate_baseState hg
    have hseed : jumpByMatrix baseState = jump Config.standard baseState := by decide +kernel
    rw [(jumpByMatrix_commute.iterate_right k).eq, ((jump_commute _).iterate_right k).eq, hseed]

end Sys2Proof.Machine
end

section
/-! The statement of 42_jump.md on the jump matrix. -/

namespace Sys2Proof.Proofs

open Sys2Proof.Machine

/-- Settles O40: the matrix and the loop both commute with the step, and agree on one state of its one cycle. -/
theorem jumpMatrixAgrees : Obligations.JumpMatrixAgrees := jumpByMatrix_eq_jump

end Sys2Proof.Proofs
end

section
/-! SUPPORT. What a command writes to S0 and S1, and that it keeps the command in flight sound: the invariant, command
by command, step by step, event by event (R102, R111, R305). -/

namespace Sys2Proof.Machine

/-- What a command leaves in S0 and S1: what was there, a validated state, a state some steps on, or, for JUMP and JUMPN
alone, a state some jumps on. -/
theorem execWith_gen_cases {cfg : Config} {i : Instr} {s t : State} (h : execWith cfg i s = .next t) :
    t.gen = s.gen ∨ (∃ g, t.gen = validate cfg g) ∨ (∃ n, t.gen = genNext^[n] s.gen) ∨
      ((i = .jump ∨ ∃ n, i = .jumpn n) ∧ ∃ n, t.gen = jumpAdvance cfg n s.gen) := by
  cases i with
  | seedWords w =>
    change runSeedWords cfg w s = .next t at h
    obtain ⟨ds, rest, -, -, he⟩ | ⟨ds, rest, -, -, he⟩ | ⟨ds, -, -, he⟩ := runSeedWords_cases cfg w s
    all_goals
      rw [he] at h
      cases h
    · exact .inr (.inl ⟨_, rfl⟩)
    · exact .inl rfl
    · exact .inl rfl
  | seedU64 v => cases h; exact .inr (.inl ⟨_, rfl⟩)
  | seedDefault => cases h; exact .inr (.inl ⟨_, rfl⟩)
  | loadState a b => cases h; exact .inr (.inl ⟨_, rfl⟩)
  | next => cases h; exact .inr (.inr (.inl ⟨1, rfl⟩))
  | discard n => cases h; exact .inr (.inr (.inl ⟨n.toNat, rfl⟩))
  | jump => cases h; exact .inr (.inr (.inr ⟨.inl rfl, 1, rfl⟩))
  | jumpn n => cases h; exact .inr (.inr (.inr ⟨.inr ⟨n, rfl⟩, n.toNat, rfl⟩))
  | readState => cases h; exact .inl rfl

/-- For a configuration that meets the premise of R10, only a jump can lead to (0, 0). -/
theorem execWith_gen_ne {cfg : Config} {i : Instr} {s t : State} (hcfg : cfg.wellFormed = true)
    (hs : s.gen ≠ GenState.degenerate) (h : execWith cfg i s = .next t)
    (hjump : (i = .jump ∨ ∃ n, i = .jumpn n) → ∀ n, jumpAdvance cfg n s.gen ≠ GenState.degenerate) :
    t.gen ≠ GenState.degenerate := by
  obtain he | ⟨g, he⟩ | ⟨n, he⟩ | ⟨hi, n, he⟩ := execWith_gen_cases h
  all_goals rw [he]
  · exact hs
  · exact validate_ne hcfg g
  · exact (iterate_genNext_eq_degenerate_iff n s.gen).not.mpr hs
  · exact hjump hi n

/-- With the default constants a jump does not lead there either. -/
theorem exec_gen_ne {i : Instr} {s t : State} (hs : s.gen ≠ GenState.degenerate) (h : exec i s = .next t) :
    t.gen ≠ GenState.degenerate := by
  rw [exec_eq_execWith] at h
  refine execWith_gen_ne standard_wellFormed hs h fun _ n => ?_
  rw [jumpAdvance, jump_iterate]
  exact (iterate_genNext_eq_degenerate_iff _ s.gen).not.mpr hs

theorem Phase.sound_waiting_iff (w : WordWidth) (staged : List Word) :
    (Phase.waiting w staged).sound = true ↔ staged.length < w.count ∧ ∀ x ∈ staged, x.toNat < 2 ^ w.bits := by
  simp [Phase.sound]

/-- The staged words of a sound command in flight have W bits (R422). -/
theorem State.stagedFor_lt {s : State} (h : s.phase.sound = true) (w : WordWidth) :
    ∀ x ∈ s.stagedFor w, x.toNat < 2 ^ w.bits := by
  unfold State.stagedFor
  split
  · rename_i w' staged hp
    rw [hp, Phase.sound_waiting_iff] at h
    split
    · rename_i hw
      exact hw ▸ h.2
    · simp
  · simp

/-- A command ends with a sound response, or waits with fewer than k words of W bits. -/
theorem exec_sound {i : Instr} {s t : State} (hs : s.phase.sound = true) (h : exec i s = .next t) :
    t.phase.sound = true := by
  rw [exec_eq_execWith] at h
  obtain ⟨g, d0, d1, xs, he, -⟩ | ⟨w, xs, -, he⟩ | ⟨w, ds, -, hlen, -, he⟩ := execWith_cases Config.standard i s
  all_goals
    rw [he] at h
    cases h
  · rfl
  · rfl
  · rw [Phase.sound_waiting_iff, List.length_append, List.length_map]
    refine ⟨by omega, fun x hx => ?_⟩
    obtain hx | hx := List.mem_append.mp hx
    · exact State.stagedFor_lt hs w x hx
    · obtain ⟨d, -, rfl⟩ := List.mem_map.mp hx
      exact seedWord_lt w d

theorem exec_inv {i : Instr} {s t : State} (hs : Inv s) (h : exec i s = .next t) : Inv t :=
  ⟨exec_gen_ne hs.1 h, exec_sound hs.2 h⟩

theorem State.accept_inv {s : State} (hs : Inv s) : Inv s.accept := by
  obtain ⟨-, he⟩ | ⟨c, cs, -, he⟩ := s.accept_cases
  all_goals rw [he]
  · exact hs
  · exact ⟨hs.1, rfl⟩

theorem State.deliver_inv {s : State} (hs : Inv s) (r : Response) : Inv (s.deliver r) := by
  obtain ⟨-, he⟩ | ⟨-, he⟩ := s.deliver_cases r
  all_goals rw [he]
  · exact hs
  · exact ⟨hs.1, rfl⟩

theorem defaultState_ne {cfg : Config} (h : cfg.wellFormed = true) : defaultState cfg ≠ GenState.degenerate :=
  validate_ne h _

theorem State.takeReset_inv (s : State) : Inv (s.takeReset Config.standard) :=
  ⟨defaultState_ne standard_wellFormed, rfl⟩

theorem step_inv {s t : State} (hs : Inv s) (h : step s = .next t) : Inv t := by
  obtain ⟨-, he⟩ | ⟨-, hg, -⟩ | ⟨-, -, hcase⟩ := step_cases s
  · rw [he] at h
    cases h
    exact s.takeReset_inv
  · exact absurd hg hs.1
  · obtain ⟨-, he⟩ | ⟨c, e, -, -, he⟩ | ⟨c, i, -, -, he⟩ | ⟨w, staged, -, he⟩ | ⟨r, -, he⟩ := hcase
    all_goals rw [he] at h
    · cases h
      exact State.accept_inv hs
    · cases h
      exact ⟨hs.1, rfl⟩
    · exact exec_inv hs h
    · exact exec_inv hs h
    · cases h
      exact State.deliver_inv hs r

/-- Every command goes on, in every state (log entry 9). -/
theorem exec_goes_on (i : Instr) (s : State) : ∃ t, exec i s = .next t := by
  rw [exec_eq_execWith]
  obtain ⟨g, d0, d1, xs, he, -⟩ | ⟨w, xs, -, he⟩ | ⟨w, ds, -, -, -, he⟩ := execWith_cases Config.standard i s
  all_goals exact ⟨_, he⟩

/-- A step goes on unless it starts in (0, 0) with no reset requested. -/
theorem step_goes_on {s : State} (h : ¬ (s.rst = false ∧ s.gen = GenState.degenerate)) : ∃ t, step s = .next t := by
  obtain ⟨-, he⟩ | ⟨hr, hg, -⟩ | ⟨-, -, hcase⟩ := step_cases s
  · exact ⟨_, he⟩
  · exact absurd ⟨hr, hg⟩ h
  · obtain ⟨-, he⟩ | ⟨c, e, -, -, he⟩ | ⟨c, i, -, -, he⟩ | ⟨w, staged, -, he⟩ | ⟨r, -, he⟩ := hcase
    · exact ⟨_, he⟩
    · exact ⟨_, he⟩
    · exact he ▸ exec_goes_on i s
    · exact he ▸ exec_goes_on (.seedWords w) s
    · exact ⟨_, he⟩

theorem step_degenerate {s : State} (hr : s.rst = false) (hg : s.gen = GenState.degenerate) :
    step s = .fault .degenerateState := by
  simp [step, lifecycle, hr, hg]

theorem step_rst {s : State} (hr : s.rst = true) : step s = .next (s.takeReset Config.standard) := by
  simp [step, lifecycle, hr]

theorem Event.run_safe (e : Event) {s : State} (hs : Inv s) : SafeOut (e.run s) := by
  cases e with
  | env a => exact ⟨_, rfl, by rwa [Inv, EnvAction.apply_gen, EnvAction.apply_phase]⟩
  | block =>
    obtain ⟨t, ht⟩ := step_goes_on fun h => hs.1 h.2
    exact ⟨t, ht, step_inv hs ht⟩

theorem runEvents_safe (es : List Event) {s : State} (hs : Inv s) : SafeOut (runEvents es s) := by
  induction es generalizing s with
  | nil => exact ⟨s, rfl, hs⟩
  | cons e es ih =>
    obtain ⟨t, ht, hinv⟩ := e.run_safe hs
    rw [runEvents, ht]
    exact ih hinv

theorem reset_inv : Inv State.reset := ⟨defaultState_ne standard_wellFormed, rfl⟩

theorem stepWith_rst {cfg : Config} {s : State} (hcfg : cfg.wellFormed = true) (hr : s.rst = true) :
    stepWith cfg s = .next (s.takeReset cfg) := by
  simp [stepWith, hcfg, lifecycle, hr]

theorem step_eq_stepWith (s : State) : step s = stepWith Config.standard s := by
  rw [stepWith, if_pos standard_wellFormed, step, funext₂ exec_eq_execWith]

end Sys2Proof.Machine
end

section
/-! The statements on the invariant and the degenerate state (10_state.md section 1, 60_exceptions.md section 2). -/

namespace Sys2Proof.Proofs

open Sys2Proof.Machine

/-- Settles O54, by what a step can do: a command keeps both parts of the invariant, and the transfers on the ports and
the reset leave no command in flight or one that has not run. -/
theorem stepKeepsInvariant : Obligations.StepKeepsInvariant := fun _ _ => step_inv

/-- Settles O53: reset validates, and leaves no command in flight. -/
theorem resetMeetsInvariant : Obligations.ResetMeetsInvariant := reset_inv

/-- Settles O55: the host does not touch what the invariant speaks of, and a step keeps it and goes on. -/
theorem everyScheduleFromResetIsSafe : Obligations.EveryScheduleFromResetIsSafe := fun es => runEvents_safe es reset_inv

/-- Settles O52: a step that does not start in (0, 0), or starts with a reset, goes on, so it does not fault. -/
theorem degenerateStateFaults : Obligations.DegenerateStateFaults := by
  refine ⟨by decide, fun s => ⟨fun h => ?_, fun ⟨hr, hg⟩ => step_degenerate hr hg⟩, fun _ => step_goes_on⟩
  by_contra hne
  obtain ⟨t, ht⟩ := step_goes_on hne
  rw [h] at ht
  cases ht

/-- Settles O50: what a command writes to S0 and S1 is not (0, 0) if it is validated or steps on from a state that is
not, and only the jumps write anything else. -/
theorem configurationPremise : Obligations.ConfigurationPremise := by
  refine ⟨standard_wellFormed, step_eq_stepWith, fun cfg s t hcfg hr h => ?_, fun cfg i s t hcfg hs hj hjn h => ?_⟩
  · rw [stepWith_rst hcfg hr] at h
    cases h
    exact defaultState_ne hcfg
  · refine execWith_gen_ne hcfg hs h ?_
    rintro (hi | ⟨n, hi⟩)
    · exact absurd hi hj
    · exact absurd hi (hjn n)

end Sys2Proof.Proofs
end

section
/-! SUPPORT. SEED_WORDS, by what the word source presents: all the words needed, a failure before they came, or too few
(R420, R423, R913). -/

namespace Sys2Proof.Machine

theorem step_waiting {s : State} {w : WordWidth} {staged : List Word} (hr : s.rst = false)
    (hg : s.gen ≠ GenState.degenerate) (hp : s.phase = .waiting w staged) : step s = exec (.seedWords w) s := by
  simp [step, lifecycle, hr, hg, hp]

theorem stagedFor_of_accepted_or_waiting {s : State} {w : WordWidth} {staged : List Word}
    (h : ((∃ c, s.phase = .accepted c) ∧ staged = []) ∨ s.phase = .waiting w staged) : s.stagedFor w = staged := by
  obtain ⟨⟨c, hp⟩, rfl⟩ | hp := h
  · exact State.stagedFor_accepted hp w
  · exact State.stagedFor_waiting hp

/-- With all the words still needed presented, SEED_WORDS completes (R420). -/
theorem runSeedWords_all {s : State} {w : WordWidth} {ds : List Word} {rest : List WordTransfer}
    (cfg : Config) (hlen : (s.stagedFor w).length + ds.length = w.count) (hwords : s.words = ds.map .word ++ rest) :
    runSeedWords cfg w s = .next { s with
      gen := validate cfg (pack w (s.stagedFor w ++ ds.map (seedWord w)))
      phase := .responding okResponse
      words := rest } := by
  have hneed : w.count - (s.stagedFor w).length = ds.length := by omega
  simp only [runSeedWords, hneed, hwords, takeWords_all]
  rfl

/-- With a failure before the last word needed, SEED_WORDS ends with SRC_ERR (R423). -/
theorem runSeedWords_failed {s : State} {w : WordWidth} {ds : List Word} {rest : List WordTransfer}
    (cfg : Config) (hlen : (s.stagedFor w).length + ds.length < w.count)
    (hwords : s.words = ds.map .word ++ .err :: rest) :
    runSeedWords cfg w s = .next { s with phase := .responding (errorResponse .srcErr), words := rest } := by
  have hneed : ds.length < w.count - (s.stagedFor w).length := by omega
  simp only [runSeedWords, hwords, takeWords_failed w ds rest _ hneed]
  rfl

/-- With fewer words than needed, SEED_WORDS stages them and waits (R913). -/
theorem runSeedWords_short {s : State} {w : WordWidth} {ds : List Word}
    (cfg : Config) (hlen : (s.stagedFor w).length + ds.length < w.count) (hwords : s.words = ds.map .word) :
    runSeedWords cfg w s = .next { s with
      phase := .waiting w (s.stagedFor w ++ ds.map (seedWord w))
      words := [] } := by
  have hneed : ds.length < w.count - (s.stagedFor w).length := by omega
  simp only [runSeedWords, hwords, takeWords_short w ds _ hneed]

/-- With no word needed, SEED_WORDS completes and takes none; no sound command in flight is so. -/
theorem runSeedWords_none {s : State} {w : WordWidth} (cfg : Config) (hlen : w.count ≤ (s.stagedFor w).length) :
    runSeedWords cfg w s = .next (s.seedWith cfg (pack w (s.stagedFor w))) := by
  have hnone : takeWords w 0 s.words = .all [] s.words := takeWords_all w [] s.words
  simp only [runSeedWords, Nat.sub_eq_zero_of_le hlen, hnone, List.append_nil]

/-- What comes of asking for words, some of which were taken before. -/
def WordRun.after (ws : List Word) : WordRun → WordRun
  | .all taken rest => .all (ws ++ taken) rest
  | .failed rest => .failed rest
  | .short taken => .short (ws ++ taken)

/-- Taking words in two goes is taking them in one. -/
theorem takeWords_append (w : WordWidth) (ds : List Word) (more : List WordTransfer) (need : Nat)
    (h : ds.length ≤ need) : takeWords w need (ds.map .word ++ more) =
      (takeWords w (need - ds.length) more).after (ds.map (seedWord w)) := by
  induction ds generalizing need with
  | nil =>
    rw [List.length_nil, Nat.sub_zero, List.map_nil, List.map_nil, List.nil_append]
    cases takeWords w need more <;> rfl
  | cons d ds ih =>
    obtain ⟨n, rfl⟩ : ∃ n, need = n + 1 := ⟨need - 1, by rw [List.length_cons] at h; omega⟩
    rw [List.map_cons, List.cons_append, takeWords, ih n (by simpa using h), List.length_cons, Nat.add_sub_add_right]
    cases takeWords w (n - ds.length) more <;> rfl

/-- A SEED_WORDS that has staged words goes on as if they had come with those it gets later (R913). -/
theorem runSeedWords_resume (cfg : Config) (w : WordWidth) (s : State) (staged ds : List Word)
    (more : List WordTransfer) (hlen : staged.length + ds.length < w.count) :
    runSeedWords cfg w { s with phase := .waiting w (staged ++ ds.map (seedWord w)), words := more } =
      runSeedWords cfg w { s with phase := .waiting w staged, words := ds.map .word ++ more } := by
  have hstaged : ∀ (ws : List Word) (xs : List WordTransfer),
      State.stagedFor { s with phase := .waiting w ws, words := xs } w = ws :=
    fun _ _ => State.stagedFor_waiting rfl
  have htake := takeWords_append w ds more (w.count - staged.length) (by omega)
  have hneed : w.count - (staged ++ ds.map (seedWord w)).length = w.count - staged.length - ds.length := by
    rw [List.length_append, List.length_map, Nat.sub_add_eq]
  simp only [runSeedWords, hstaged, htake, hneed]
  cases takeWords w (w.count - staged.length - ds.length) more <;> simp only [WordRun.after, List.append_assoc] <;> rfl

end Sys2Proof.Machine
end

section
/-! SUPPORT. Who takes words from the port, and when S0 and S1 are written (R112, R304). -/

namespace Sys2Proof.Machine

theorem State.wReady_iff (s : State) : s.wReady = true ↔ s.rst = false ∧
    ((∃ w staged, s.phase = .waiting w staged ∧ staged.length < w.count) ∨
      ∃ c w, s.phase = .accepted c ∧ decode c = .ok (.seedWords w)) := by
  rw [State.wReady, Bool.and_eq_true, Bool.not_eq_true', State.needsWords]
  refine and_congr_right fun _ => ?_
  cases s.phase with
  | idle => simp
  | responding r => simp
  | waiting w staged => simp
  | accepted c =>
    cases hd : decode c with
    | error e => simp [hd]
    | ok i => cases i <;> simp [hd]

/-- The same machine with other transfers standing on the word port. -/
def State.withWords (s : State) (xs : List WordTransfer) : State := { s with words := xs }

/-- A command other than SEED_WORDS neither reads nor changes the word port. -/
theorem exec_withWords {i : Instr} (hi : ∀ w, i ≠ .seedWords w) (s : State) (xs : List WordTransfer) :
    exec i (s.withWords xs) = Out.mapNext (State.withWords · xs) (exec i s) := by
  cases i with
  | seedWords w => exact absurd rfl (hi w)
  | _ => rfl

theorem exec_words {i : Instr} {s t : State} (hi : ∀ w, i ≠ .seedWords w) (h : exec i s = .next t) :
    t.words = s.words := by
  obtain ⟨g, d0, d1, he⟩ := exec_responds_ok hi s
  rw [he] at h
  cases h
  rfl

theorem State.accept_withWords (s : State) (xs : List WordTransfer) :
    (s.withWords xs).accept = s.accept.withWords xs := by
  obtain ⟨hc, ha⟩ | ⟨c, cs, hc, ha⟩ := s.accept_cases
  · rw [ha, State.accept_nil (s := s.withWords xs) hc]
  · rw [ha, State.accept_cons (s := s.withWords xs) hc]
    rfl

theorem State.deliver_withWords (s : State) (r : Response) (xs : List WordTransfer) :
    (s.withWords xs).deliver r = (s.deliver r).withWords xs := by
  obtain ⟨hready, hd⟩ | ⟨hready, hd⟩ := s.deliver_cases r
  · rw [hd, State.deliver_held (s := s.withWords xs) hready]
  · rw [hd, State.deliver_taken (s := s.withWords xs) hready]
    rfl

/-- A SEED_WORDS that needs no more words does not read the word port. -/
theorem exec_seedWords_withWords {s : State} {w : WordWidth} (h : w.count ≤ (s.stagedFor w).length)
    (xs : List WordTransfer) :
    exec (.seedWords w) (s.withWords xs) = Out.mapNext (State.withWords · xs) (exec (.seedWords w) s) := by
  change runSeedWords _ w (s.withWords xs) = Out.mapNext _ (runSeedWords _ w s)
  rw [runSeedWords_none _ h, runSeedWords_none (s := s.withWords xs) _ h]
  rfl

/-- While W_READY is 0 a step does not read the word port (R304). -/
theorem step_withWords {s : State} (hw : s.wReady = false) (xs : List WordTransfer) :
    step (s.withWords xs) = Out.mapNext (State.withWords · xs) (step s) := by
  have hrst : (s.withWords xs).rst = s.rst := rfl
  have hgen : (s.withWords xs).gen = s.gen := rfl
  have hphase : (s.withWords xs).phase = s.phase := rfl
  have hnone := s.wReady_iff.not.mp (Bool.eq_false_iff.mp hw)
  simp only [step, lifecycle, hrst, hgen, hphase]
  split
  · rfl
  next hr =>
  split
  · rfl
  have hneeds := not_or.mp (not_and.mp hnone (Bool.eq_false_iff.mpr hr))
  cases hp : s.phase with
  | idle => exact congrArg Host.Outcome.next (s.accept_withWords xs)
  | accepted c =>
    cases hd : decode c with
    | error e =>
      simp only [runAccepted_error hd]
      rfl
    | ok i =>
      simp only [runAccepted_ok hd]
      exact exec_withWords (fun w hi => hneeds.2 ⟨c, w, hp, hi ▸ hd⟩) s xs
  | waiting w staged =>
    refine exec_seedWords_withWords ?_ xs
    rw [State.stagedFor_waiting hp]
    exact Nat.le_of_not_lt fun hlt => hneeds.1 ⟨w, staged, hp, hlt⟩
  | responding r => exact congrArg Host.Outcome.next (s.deliver_withWords r xs)

/-- While W_READY is 0 no word is taken: the step is the same with the words that stand there. -/
theorem step_words {s t : State} (hw : s.wReady = false) (h : step s = .next t) : t.words = s.words := by
  have hsame := step_withWords hw s.words
  rw [show s.withWords s.words = s from rfl, h] at hsame
  injection hsame with hsame
  have hport : t.words = (t.withWords s.words).words := congrArg State.words hsame
  exact hport

/-- How a command leaves the machine: it responds OK, or it leaves S0 and S1 and responds with an error or waits. -/
theorem exec_ends_or_waits {i : Instr} {s t : State} (h : exec i s = .next t) :
    (∃ r, t.phase = .responding r ∧ r.status = .ok) ∨
      (t.gen = s.gen ∧ ((∃ r, t.phase = .responding r) ∨ ∃ w staged, t.phase = .waiting w staged)) := by
  rw [exec_eq_execWith] at h
  obtain ⟨g, d0, d1, xs, he, -⟩ | ⟨w, xs, -, he⟩ | ⟨w, ds, -, -, -, he⟩ := execWith_cases Config.standard i s
  all_goals
    rw [he] at h
    cases h
  · exact .inl ⟨_, rfl, rfl⟩
  · exact .inr ⟨rfl, .inl ⟨_, rfl⟩⟩
  · exact .inr ⟨rfl, .inr ⟨_, _, rfl⟩⟩

/-- A step from an accepted or waiting command, without a reset, is the command's or presents ILLEGAL. -/
theorem step_inFlight_cases {s t : State} (hr : s.rst = false)
    (hp : (∃ c, s.phase = .accepted c) ∨ ∃ w staged, s.phase = .waiting w staged) (h : step s = .next t) :
    t = s.raise .illegal ∨ ∃ i, exec i s = .next t := by
  obtain ⟨hr', -⟩ | ⟨-, -, he⟩ | ⟨-, -, hcase⟩ := step_cases s
  · rw [hr] at hr'
    cases hr'
  · rw [he] at h
    cases h
  · obtain ⟨hi, -⟩ | ⟨c, e, -, -, he⟩ | ⟨c, i, -, -, he⟩ | ⟨w, staged, -, he⟩ | ⟨r, hi, -⟩ := hcase
    · simp [hi] at hp
    · rw [he] at h
      cases h
      exact .inl rfl
    · exact .inr ⟨i, he ▸ h⟩
    · exact .inr ⟨_, he ▸ h⟩
    · simp [hi] at hp

/-- Outside an accepted or waiting command, and without a reset, a step leaves S0 and S1. -/
theorem step_gen_of_not_inFlight {s t : State} (hr : s.rst = false)
    (hp : ¬ ((∃ c, s.phase = .accepted c) ∨ ∃ w staged, s.phase = .waiting w staged)) (h : step s = .next t) :
    t.gen = s.gen := by
  obtain ⟨hr', -⟩ | ⟨-, -, he⟩ | ⟨-, -, hcase⟩ := step_cases s
  · rw [hr] at hr'
    cases hr'
  · rw [he] at h
    cases h
  · obtain ⟨-, he⟩ | ⟨c, e, hi, -⟩ | ⟨c, i, hi, -⟩ | ⟨w, staged, hi, -⟩ | ⟨r, -, he⟩ := hcase
    · rw [he] at h
      cases h
      exact s.accept_gen
    · exact absurd (.inl ⟨c, hi⟩) hp
    · exact absurd (.inl ⟨c, hi⟩) hp
    · exact absurd (.inr ⟨w, staged, hi⟩) hp
    · rw [he] at h
      cases h
      exact s.deliver_gen r

end Sys2Proof.Machine
end

section
/-! The statements of 30_encoding.md section 1 on the word port and of 10_state.md section 3 on when the state is
written. -/

namespace Sys2Proof.Proofs

open Sys2Proof.Machine

/-- Settles O13: a step reads the word port only through a SEED_WORDS that needs words. -/
theorem wordPortServesSeedWordsOnly : Obligations.WordPortServesSeedWordsOnly := by
  refine ⟨State.wReady_iff, fun _ _ => step_words, fun s xs hw => ?_, fun _ _ _ => exec_words,
    fun w d rest => ⟨rfl, rfl⟩⟩
  change step (s.withWords xs) = _
  rw [step_withWords hw xs]
  cases step s <;> rfl

/-- Settles O14: only a command in flight writes S0 and S1, and it ends with OK when it does. -/
theorem stateWrittenOnlyAtCompletion : Obligations.StateWrittenOnlyAtCompletion := by
  refine ⟨fun s t h hne => ?_, fun s t h hp => ?_⟩
  all_goals
    obtain hr | hr := Bool.eq_false_or_eq_true s.rst
    · exact .inl hr
    refine .inr ?_
  · have hp := not_not.mp (mt (fun hp => step_gen_of_not_inFlight hr hp h) hne)
    refine ⟨hp, ?_⟩
    obtain rfl | ⟨i, he⟩ := step_inFlight_cases hr hp h
    · exact absurd rfl hne
    · exact (exec_ends_or_waits he).resolve_right fun hkept => hne hkept.1
  · obtain rfl | ⟨i, he⟩ := step_inFlight_cases hr hp h
    · exact .inl ⟨_, rfl⟩
    · obtain ⟨r, hok, -⟩ | ⟨hgen, hresp | ⟨w, staged, hw⟩⟩ := exec_ends_or_waits he
      · exact .inl ⟨r, hok⟩
      · exact .inl hresp
      · exact .inr ⟨w, staged, hw, hgen⟩

end Sys2Proof.Proofs
end

section
/-! SUPPORT. The default expander (R401, R403): `mix` is undone step by step, so it is 0 at 0 alone. -/

namespace Sys2Proof.Machine

/-- A word is recovered from its sum with itself shifted down: two such words differ by a word that is its own shift. -/
theorem xor_ushiftRight_injective {k : Nat} (hk : 0 < k) : Function.Injective (fun z : Word => z ^^^ z >>> k) := by
  intro x y h
  dsimp only at h
  have hshift : x ^^^ y = (x ^^^ y) >>> k := by
    rw [BitVec.ushiftRight_xor_distrib]
    calc x ^^^ y = x ^^^ (y ^^^ y >>> k) ^^^ y >>> k := by
          rw [BitVec.xor_assoc x, BitVec.xor_assoc y, BitVec.xor_self, BitVec.xor_zero]
      _ = x >>> k ^^^ y >>> k := by rw [← h, ← BitVec.xor_assoc x, BitVec.xor_self, BitVec.zero_xor]
  have hdiv : (x ^^^ y).toNat = (x ^^^ y).toNat / 2 ^ k := by
    rw [← Nat.shiftRight_eq_div_pow, ← BitVec.toNat_ushiftRight, ← hshift]
  have hzero : (x ^^^ y).toNat = 0 := by
    by_contra hne
    exact (Nat.div_lt_self (Nat.pos_of_ne_zero hne) (Nat.one_lt_two_pow hk.ne')).ne hdiv.symm
  exact BitVec.xor_eq_zero_iff.mp (BitVec.eq_of_toNat_eq hzero)

/-- Multiplying by a word that has an inverse loses nothing. -/
theorem mul_injective_of_inverse {c d : Word} (h : c * d = 1) : Function.Injective (fun z : Word => z * c) := by
  refine Function.LeftInverse.injective (g := fun z => z * d) fun z => ?_
  change z * c * d = z
  rw [BitVec.mul_assoc, h]
  exact BitVec.mul_one z

theorem splitMix_injective : Function.Injective splitMix := by
  have h30 := xor_ushiftRight_injective (k := 30) (by decide)
  have h27 := xor_ushiftRight_injective (k := 27) (by decide)
  have h31 := xor_ushiftRight_injective (k := 31) (by decide)
  have hM1 := mul_injective_of_inverse (c := 0xBF58476D1CE4E5B9) (d := 0x96DE1B173F119089) (by decide)
  have hM2 := mul_injective_of_inverse (c := 0x94D049BB133111EB) (d := 0x319642B2D24D8EC3) (by decide)
  exact h31.comp (hM2.comp (h27.comp (hM1.comp h30)))

theorem splitMix_bijective : Function.Bijective splitMix := Finite.injective_iff_bijective.mp splitMix_injective

theorem splitMix_eq_zero_iff (z : Word) : splitMix z = 0 ↔ z = 0 := by
  rw [← splitMix_injective.eq_iff (a := z)]
  exact Iff.rfl

theorem splitMixExpand_fst_eq_zero_iff (v : Word) : (splitMixExpand v).1 = 0 ↔ v = 0x61C8864680B583EB := by
  have hroot : (0x61C8864680B583EB + splitMixG : Word) = 0 := by decide
  rw [splitMixExpand, splitMix_eq_zero_iff, ← hroot, add_left_inj]

theorem splitMixExpand_snd_eq_zero_iff (v : Word) : (splitMixExpand v).2 = 0 ↔ v = 0xC3910C8D016B07D6 := by
  have hroot : (0xC3910C8D016B07D6 + splitMixG + splitMixG : Word) = 0 := by decide
  rw [splitMixExpand, splitMix_eq_zero_iff, ← hroot, add_left_inj, add_left_inj]

/-- The two words are 0 for different seeds, so never both (R403). -/
theorem splitMixExpand_ne (v : Word) : splitMixExpand v ≠ (0, 0) := by
  intro h
  obtain ⟨h1, h2⟩ := Prod.ext_iff.mp h
  rw [splitMixExpand_fst_eq_zero_iff] at h1
  rw [splitMixExpand_snd_eq_zero_iff, h1] at h2
  exact absurd h2 (by decide)

theorem validate_expand_standard (v : Word) :
    validate Config.standard (expand Config.standard v) = expand Config.standard v :=
  validate_of_ne (mt expand_eq_degenerate_iff.mp (splitMixExpand_ne v))

end Sys2Proof.Machine
end

section
/-! SUPPORT. The seeding commands as equations of `exec`, and a well-formed line from acceptance to response. -/

namespace Sys2Proof.Machine

theorem exec_seedU64 (v : Word) (s : State) :
    exec (.seedU64 v) s = .next (s.seedWith Config.standard (expand Config.standard v)) := rfl

theorem exec_seedDefault (s : State) : exec .seedDefault s = exec (.seedU64 0xFFFFFFFFFFFFFFFF) s := rfl

theorem exec_loadState (a b : Word) (s : State) :
    exec (.loadState a b) s = .next (s.seedWith Config.standard ⟨a, b⟩) := rfl

theorem exec_seedWords (w : WordWidth) (s : State) : exec (.seedWords w) s = runSeedWords Config.standard w s := rfl

/-- A state that is not (0, 0) is loaded as it is (R430). -/
theorem exec_loadState_of_ne {a b : Word} (h : (⟨a, b⟩ : GenState) ≠ GenState.degenerate) (s : State) :
    exec (.loadState a b) s = .next { s with gen := ⟨a, b⟩, phase := .responding ⟨.ok, 0, 0⟩ } := by
  rw [exec_loadState, State.seedWith, validate_of_ne h]
  rfl

/-- The transfers of a well-formed SEED_WORDS line: all the words needed, or fewer and a failure (R309). -/
theorem transfersFit_cases {need : Nat} {xs : List WordTransfer} (h : transfersFit need xs = true) :
    (∃ ds : List Word, ds.length = need ∧ xs = ds.map .word) ∨
      ∃ ds : List Word, ds.length < need ∧ xs = ds.map .word ++ [.err] := by
  induction need generalizing xs with
  | zero => exact .inl ⟨[], rfl, List.isEmpty_iff.mp (by rwa [transfersFit] at h)⟩
  | succ n ih =>
    match xs with
    | [] => cases h
    | .err :: rest => exact .inr ⟨[], n.succ_pos, by rw [List.isEmpty_iff.mp h]; rfl⟩
    | .word d :: rest =>
      obtain ⟨ds, hlen, rfl⟩ | ⟨ds, hlen, rfl⟩ := ih h
      · exact .inl ⟨d :: ds, congrArg _ hlen, rfl⟩
      · exact .inr ⟨d :: ds, Nat.succ_lt_succ hlen, rfl⟩

theorem Line.words_of_wellFormed {i : Instr} {xs : List WordTransfer} (hi : ∀ w, i ≠ .seedWords w)
    (h : (Line.mk i xs).wellFormed = true) : xs = [] := by
  cases i with
  | seedWords w => exact absurd rfl (hi w)
  | _ => exact List.isEmpty_iff.mp h

/-- A command that has just been accepted, with exactly the transfers of its line presented, takes them all and ends. -/
theorem exec_of_line {l : Line} (hl : l.wellFormed = true) {s : State} {c : Command} (hp : s.phase = .accepted c)
    (hwords : s.words = l.words) :
    ∃ g r, exec l.instr s = .next { s with gen := g, phase := .responding r, words := [] } := by
  obtain ⟨i, xs⟩ := l
  dsimp only at hwords ⊢
  by_cases hi : ∀ w, i ≠ .seedWords w
  · obtain ⟨g, d0, d1, he⟩ := exec_responds_ok hi s
    obtain rfl := Line.words_of_wellFormed hi hl
    exact ⟨g, ⟨.ok, d0, d1⟩, by rw [he, ← hwords]⟩
  · obtain ⟨w, rfl⟩ := not_forall_not.mp hi
    have hstaged : (s.stagedFor w).length = 0 := by rw [State.stagedFor_accepted hp, List.length_nil]
    obtain ⟨ds, hlen, rfl⟩ | ⟨ds, hlen, rfl⟩ := transfersFit_cases hl
    · exact ⟨_, _, runSeedWords_all (ds := ds) (rest := []) _ (by omega) (by rw [hwords, List.append_nil])⟩
    · exact ⟨s.gen, _, runSeedWords_failed _ (by omega) hwords⟩

/-- A host that is ready takes the response (R301). -/
theorem step_delivers {s : State} {r : Response} (hr : s.rst = false) (hg : s.gen ≠ GenState.degenerate)
    (hp : s.phase = .responding r) (hready : s.rspReady = true) :
    step s = .next { s with phase := .idle, responses := s.responses ++ [r] } := by
  rw [step_responding hr hg hp, State.deliver_taken hready]

/-- The machine with the line's command accepted and its transfers presented. -/
def State.acceptedLine (s : State) (l : Line) : State :=
  { s with phase := .accepted (encode l.instr), words := l.words }

theorem step_presentLine {s : State} (l : Line) (hg : s.gen ≠ GenState.degenerate) (hr : s.rst = false)
    (hp : s.phase = .idle) (hc : s.cmds = []) (hw : s.words = []) :
    step (s.presentLine l) = .next (s.acceptedLine l) := by
  have hcmds : (s.presentLine l).cmds = [encode l.instr] := by
    rw [State.presentLine, hc]
    rfl
  rw [step_accepts (s := s.presentLine l) hr hg hp hcmds]
  simp only [State.presentLine, State.acceptedLine, hw, List.nil_append, ← hc]

/-- A line presented to an idle block: accepted, run, and answered, in one step each (R301). -/
theorem runEvents_presentLine {l : Line} {s : State} (hl : l.wellFormed = true) (hg : s.gen ≠ GenState.degenerate)
    (hr : s.rst = false) (hp : s.phase = .idle) (hc : s.cmds = []) (hw : s.words = []) (hready : s.rspReady = true) :
    ∃ g r, runEvents [.block, .block, .block] (s.presentLine l) =
      .next { s with gen := g, responses := s.responses ++ [r] } := by
  obtain ⟨g, r, hexec⟩ := exec_of_line hl (s := s.acceptedLine l) rfl rfl
  have hrun : step (s.acceptedLine l) = .next { s with gen := g, phase := .responding r, words := [] } := by
    rw [step_accepted (s := s.acceptedLine l) hr hg rfl, runAccepted_ok (decode_encode l.instr)]
    exact hexec
  have hanswer : step { s with gen := g, phase := .responding r, words := [] } =
      .next { s with gen := g, phase := .idle, words := [], responses := s.responses ++ [r] } :=
    step_delivers hr (exec_gen_ne (s := s.acceptedLine l) hg hexec) rfl hready
  refine ⟨g, r, ?_⟩
  rw [runEvents_block (step_presentLine l hg hr hp hc hw), runEvents_block hrun,
    runEvents_block hanswer, runEvents, ← hp, ← hw]

end Sys2Proof.Machine
end

section
/-! The statements of 40_seeding.md on the seeding commands, and of 30_encoding.md on a listing's lines. -/

namespace Sys2Proof.Proofs

open Sys2Proof.Machine

/-- Settles O16: the seeding commands and the reset end with the validator, and SEED_WORDS ends with OK only when the
words are all there. -/
theorem seedingEndsWithValidation : Obligations.SeedingEndsWithValidation := by
  refine fun cfg s => ⟨fun _ => rfl, rfl, fun _ _ => rfl, fun w ds rest => runSeedWords_all cfg,
    fun w t r hs h hp hok => ?_, fun hr hcfg => ⟨_, stepWith_rst hcfg hr, rfl⟩⟩
  change runSeedWords cfg w s = .next t at h
  have hle := State.stagedFor_length_le hs w
  obtain ⟨ds, rest, hlen, hwords, he⟩ | ⟨ds, rest, -, -, he⟩ | ⟨ds, -, -, he⟩ := runSeedWords_cases cfg w s
  all_goals
    rw [he] at h
    cases h
    cases hp
  · exact ⟨rfl, ds, rest, by omega, hwords, rfl, rfl⟩
  · cases hok

/-- Settles O17: `mix` is a composition of maps that can be undone. -/
theorem expansionNeverDegenerate : Obligations.ExpansionNeverDegenerate :=
  ⟨splitMix_bijective, rfl, splitMixExpand_ne, splitMixExpand_fst_eq_zero_iff, splitMixExpand_snd_eq_zero_iff,
    validate_expand_standard⟩

/-- Settles O18: the validator keeps the expansion. -/
theorem seedU64WritesExpansion : Obligations.SeedU64WritesExpansion := by
  refine ⟨fun _ => rfl, fun _ => rfl, fun v s => ?_⟩
  rw [exec_seedU64, State.seedWith, validate_expand_standard]
  rfl

/-- Settles O20: SEED_DEFAULT validates the expansion that reset validates. -/
theorem seedDefaultLeavesResetState : Obligations.SeedDefaultLeavesResetState :=
  fun s => ⟨exec_seedDefault s, rfl⟩

/-- Settles O21: the validator keeps every pair of operands but (0, 0), for which it gives the default state. -/
theorem loadStateCopiesOperands : Obligations.LoadStateCopiesOperands := by
  refine fun s => ⟨fun a b hab => exec_loadState_of_ne (fun h => hab ?_) s, ?_, fun hs => exec_loadState_of_ne hs s⟩
  · injection h with ha hb
    exact ⟨ha, hb⟩
  · have hzero : validate Config.standard ⟨0, 0⟩ = State.reset.gen :=
      (validate_degenerate Config.standard).trans (validate_expand_standard _).symm
    rw [exec_loadState, State.seedWith, hzero]
    rfl

/-- Settles O23: the words it still needs are all there. -/
theorem seedWordsCompletesWithAllWords : Obligations.SeedWordsCompletesWithAllWords := by
  intro w s staged ds rest hp hlen hwords
  obtain rfl := stagedFor_of_accepted_or_waiting hp
  exact runSeedWords_all _ hlen hwords

/-- Settles O24: the failure ends the command as it is, and no other command has such an end. -/
theorem seedWordsFailureLeavesState : Obligations.SeedWordsFailureLeavesState := by
  refine ⟨fun w s staged ds rest hp hlen hwords => ?_, fun i s t d0 d1 h ht => ?_⟩
  · obtain rfl := stagedFor_of_accepted_or_waiting hp
    exact runSeedWords_failed _ hlen hwords
  · rw [exec_eq_execWith] at h
    obtain ⟨g, e0, e1, xs, he, -⟩ | ⟨w, xs, hw, he⟩ | ⟨w, ds, -, -, -, he⟩ := execWith_cases Config.standard i s
    all_goals
      rw [he] at h
      cases h
      cases ht
    exact ⟨⟨w, hw⟩, rfl, rfl, rfl⟩

/-- Settles O25: the words there are get staged, from where the command resumes; with none there is nothing to stage. -/
theorem seedWordsHoldsForWords : Obligations.SeedWordsHoldsForWords := by
  refine ⟨fun w s staged ds hp hlen hwords => ?_, fun w s staged hg hp hlen hwords => ⟨fun hr => ?_, fun hr => ?_⟩⟩
  · obtain rfl := stagedFor_of_accepted_or_waiting hp
    exact ⟨runSeedWords_short _ hlen hwords, fun more => runSeedWords_resume _ w s _ ds more hlen⟩
  · have hstaged := State.stagedFor_waiting hp
    rw [step_waiting hr hg hp, exec_seedWords, runSeedWords_short (ds := []) _ (by rwa [hstaged]) hwords, hstaged,
      List.map_nil, List.append_nil, ← hp, ← hwords]
  · exact ⟨_, step_rst hr, rfl⟩

/-- Settles O27: acceptance, one step of the command that takes exactly the words of the line, and the response. -/
theorem wellFormedLineCompletes : Obligations.WellFormedLineCompletes :=
  fun _ _ hl hg hr hp hc hw hready => runEvents_presentLine hl hg hr hp hc hw hready

end Sys2Proof.Proofs
end

section
/-! SUPPORT. The sample written as one number is decoded as every sample is (log entry 8). -/

namespace Sys2Proof

theorem decode_of_decodeTableWord {nbits w : Nat} {i : Instr} (h : decodeTableWord nbits w = some i) :
    decode (commandOfBits nbits w) = .ok i := by
  rw [decodeTableWord] at h
  split at h
  · rename_i hd
    cases h
    exact hd
  · cases h

end Sys2Proof
end

section
/-! The statements on the life of a command, NEXT, READ_STATE and the reset (30_encoding.md section 1, 41_generation.md
section 2, 43_state_access.md, 60_exceptions.md section 3, 70_reset_and_hazards.md). -/

namespace Sys2Proof.Proofs

open Sys2Proof.Machine

/-- Settles O7: the accepted sample goes through the decoder to `exec`, a waiting SEED_WORDS goes there itself. -/
theorem stepRunsAcceptedCommand : Obligations.StepRunsAcceptedCommand := by
  refine ⟨fun s c i hr hg hp hd => ?_, fun _ _ _ hr hg hp => step_waiting hr hg hp, fun s nbits w i hg h => ?_⟩
  · rw [step_accepted hr hg hp, runAccepted_ok hd]
  · have hd := decode_of_decodeTableWord h
    rw [State.withFetchWord, step_accepted (State.withAccepted_rst _ _) hg (State.withAccepted_phase _ _),
      runAccepted_ok hd]

/-- Settles O9: without a reset the step is the transfer on the response port. -/
theorem responseHeldUntilTaken : Obligations.ResponseHeldUntilTaken := by
  refine fun s r hg hp => ⟨fun hr hready => ?_, fun hr hready => step_delivers hr hg hp hready,
    fun hr => ⟨_, step_rst hr, rfl, rfl⟩⟩
  rw [step_responding hr hg hp, State.deliver_held hready]

/-- Settles O51: with nothing presented there is nothing to accept. -/
theorem idleBlockHolds : Obligations.IdleBlockHolds := by
  intro s hr hg hp hc
  rw [step_idle hr hg hp, State.accept_nil hc]

/-- Settles O49: the reset comes before everything, and while it is requested the ports show nothing. -/
theorem resetAbandonsCommand : Obligations.ResetAbandonsCommand := by
  intro s hr
  refine ⟨by simp [State.cmdReady, hr], by simp [State.wReady, hr], by simp [State.rspValid, State.response?, hr], ?_⟩
  rw [step_rst hr]
  rfl

/-- Settles O48: the validated expansion of the default seed, by evaluation. -/
theorem resetStateValues : Obligations.ResetStateValues := by
  refine ⟨by decide, by decide, rfl, rfl, rfl, rfl, rfl⟩

/-- Settles O33: the result is the sum of the old words, which is below 2^64 as every word is. -/
theorem nextReturnsSumAndSteps : Obligations.NextReturnsSumAndSteps := by
  refine fun s => ⟨?_, Nat.zero_le _, Nat.le_pred_of_lt (genResult s.gen).isLt⟩
  have hstep : genStep s.gen = _ := genStep_eq_rotateLeft s.gen.s0 s.gen.s1
  have hsum : BitVec.ofNat 64 ((s.gen.s0.toNat + s.gen.s1.toNat) % 2 ^ 64) = s.gen.s0 + s.gen.s1 := by
    rw [← BitVec.toNat_add, BitVec.ofNat_toNat, BitVec.setWidth_eq]
  rw [exec_next, genNext, genResult, hstep, hsum]
  rfl

/-- Settles O45: READ_STATE presents S0 and S1, and leaves them. -/
theorem readStateReturnsState : Obligations.ReadStateReturnsState :=
  fun s => ⟨exec_readState s, rfl⟩

/-- Settles O46: the words read are not both 0, so they are loaded as they are. -/
theorem readThenLoadClonesState : Obligations.ReadThenLoadClonesState :=
  fun s u hs => ⟨_, _, _, exec_readState s, rfl, rfl, exec_loadState_of_ne hs u, rfl, fun _ => rfl⟩

end Sys2Proof.Proofs
end
